-- ==== Sys2Proof/Word.lean ====
section
/-! DEFINITION. The word types of HARQ-CORE (rules R5, R7, R9). -/

namespace Sys2Proof

/-- A bit sequence (R7): element 0 first, the leftmost when written. -/
abbrev Bits := List Bool

/-- A sequence number, `SEQ_W = 16` bits (R5). -/
abbrev SeqNum := BitVec 16

/-- One accumulator cell, `ACC_W = 8` bits, signed two's complement (R5, R36). -/
abbrev AccCell := BitVec 8

/-- A time value or an event counter, `TIME_W = CNT_W = 32` bits (R5). -/
abbrev Count := BitVec 32

end Sys2Proof
end

