-- ==== Sys2Proof/Machine/Bits.lean ====
section
/-! DEFINITION. Bit sequences and their packing (rules R7, R9). -/

namespace Sys2Proof

/-- `0^n` (R7). -/
def zeros (n : Nat) : Bits := List.replicate n false

/-- Unpacking of R9: the `w` low bits of `v`, most significant first. -/
def wordBits (w v : Nat) : Bits := (List.range w).map fun i => v.testBit (w - 1 - i)

/-- Packing of R9: the number a sequence writes, element 0 the most significant. -/
def bitsVal (s : Bits) : Nat := s.foldl (fun acc b => 2 * acc + b.toNat) 0

/-- `flip(s, i)` (R7): `s` with element `i` inverted. -/
def flipBit (s : Bits) (i : Nat) : Bits := s.modify i Bool.not

/-- `w` with `g` XORed onto its front; elements beyond `g` are unchanged, elements of `g` beyond `w` have no effect. -/
def xorFront : Bits → Bits → Bits
  | w, [] => w
  | [], _ :: _ => []
  | a :: w, b :: g => (a ^^ b) :: xorFront w g

/-- Element `q` of a sequence counted from 1: the Hamming positions of R10. -/
def bitAt (c : Bits) (q : Nat) : Bool := c.getD (q - 1) false

/-- XOR of all elements of a sequence. -/
def xorAll (s : Bits) : Bool := s.foldr (fun a b => a ^^ b) false

/-- The sequence without its leading zeros (R6: "with every leading 0 removed"). -/
def stripZeros (s : Bits) : Bits := s.dropWhile fun b => !b

end Sys2Proof
end

