-- ==== Sys2Proof/Syntax.lean ====
section
/-! DEFINITION. The 27 operations of HARQ-CORE (rule R100), one constructor per row of the opcode table. -/

namespace Sys2Proof

/-- The operations of R100. A host command carries its header's `aux` field and its payload; the header's `len` is the
payload's length (R91, R92). A frame carries its head's two fields and its bits (R96). -/
inductive Instr where
  /-- R281 -/
  | nop (aux : BitVec 8) (payload : Bits)
  /-- R282 -/
  | reset (aux : BitVec 8) (payload : Bits)
  /-- R283: `aux` is the register index, the payload the new value, most significant bit first. -/
  | cfgWr (aux : BitVec 8) (payload : Bits)
  /-- R284: `aux` is the register index. -/
  | cfgRd (aux : BitVec 8) (payload : Bits)
  /-- R285 -/
  | sessionStart (aux : BitVec 8) (payload : Bits)
  /-- R286 -/
  | sessionEnd (aux : BitVec 8) (payload : Bits)
  /-- R124 -/
  | crcRem (aux : BitVec 8) (payload : Bits)
  /-- R125 -/
  | crcAppend (aux : BitVec 8) (payload : Bits)
  /-- R126 -/
  | crcCheck (aux : BitVec 8) (payload : Bits)
  /-- R147 -/
  | hamEnc (aux : BitVec 8) (payload : Bits)
  /-- R148 -/
  | hamDec (aux : BitVec 8) (payload : Bits)
  /-- R173: `aux` is the number of codewords. -/
  | ilv (aux : BitVec 8) (payload : Bits)
  /-- R174: `aux` is the number of codewords. -/
  | dilv (aux : BitVec 8) (payload : Bits)
  /-- R204 -/
  | cbCombine (aux : BitVec 8) (payload : Bits)
  /-- R205 -/
  | cbClear (aux : BitVec 8) (payload : Bits)
  /-- R207 -/
  | cbRead (aux : BitVec 8) (payload : Bits)
  /-- R222 -/
  | pktPush (aux : BitVec 8) (payload : Bits)
  /-- R251 -/
  | frmIn (seq : SeqNum) (flen : BitVec 8) (bits : Bits)
  /-- R252 -/
  | frmLost
  /-- R225 -/
  | ctlAck (seq : SeqNum)
  /-- R228 -/
  | ctlNack (seq : SeqNum)
  /-- R226 -/
  | tick
  /-- R340 -/
  | rst
  /-- R224 -/
  | txSend
  /-- R229 -/
  | txAdvance
  /-- R253 -/
  | rxDecode
  /-- R254 -/
  | rxRespond
deriving DecidableEq, Repr

end Sys2Proof
end

