-- ==== Sys2Proof/WellFormed.lean ====
section
/-! DEFINITION. Which operations have an encoding: the length of a payload fits the header's 16-bit `len` (R91), and a
frame has as many bits as its 8-bit `flen` says (R96). Every other field is as wide as its type. -/

namespace Sys2Proof

/-- R91: `len` is 0 to 65535. -/
def payloadFits (p : Bits) : Bool := decide (p.length < 65536)

/-- R96: `flen` is "the number of frame bits that follow". -/
def frameFits (flen : BitVec 8) (bits : Bits) : Bool := decide (bits.length = flen.toNat)

/-- The operation is one its format can carry. -/
def wellFormed : Instr → Bool
  | .nop _ p | .reset _ p | .cfgWr _ p | .cfgRd _ p | .sessionStart _ p | .sessionEnd _ p => payloadFits p
  | .crcRem _ p | .crcAppend _ p | .crcCheck _ p | .hamEnc _ p | .hamDec _ p => payloadFits p
  | .ilv _ p | .dilv _ p | .cbCombine _ p | .cbClear _ p | .cbRead _ p | .pktPush _ p => payloadFits p
  | .frmIn _ flen bits => frameFits flen bits
  | .frmLost | .ctlAck _ | .ctlNack _ | .tick | .rst => true
  | .txSend | .txAdvance | .rxDecode | .rxRespond => true

end Sys2Proof
end

