-- ==== Sys2Proof/Decode.lean ====
section
/-! DEFINITION. The decoder of the input ports, and the encoder, from the formats of 30_encoding.md (R90 to R101).
A port is read as a stream of bits: the head of the format, most significant bit first, then its tail, element 0 first
(log 6). The port is part of what selects an operation (R100): the bits alone do not. -/

namespace Sys2Proof

/-- Where an operation with an encoding is presented (R63, R99): the lost-frame strobe shares the port `FRM_IN`. -/
inductive Port where
  | cmd
  | frmIn
  | frmLost
  | ctlIn
  | tick
  | rst
deriving DecidableEq, Repr

/-- Why a port's bits are no operation. -/
inductive DecodeError where
  /-- The head or the tail is not all there yet. -/
  | incomplete
  /-- R101: `op` is an illegal opcode; `rest` is what follows the command, whose payload is consumed. -/
  | badOp (op : BitVec 8) (rest : Bits)
  /-- A strobe that is not asserted. -/
  | noStrobe
deriving DecidableEq, Repr

/-- R100: the command an opcode selects. -/
def commandOf (op : BitVec 8) (aux : BitVec 8) (p : Bits) : Option Instr :=
  match op.toNat with
  | 0x00 => some (.nop aux p)
  | 0x01 => some (.reset aux p)
  | 0x02 => some (.cfgWr aux p)
  | 0x03 => some (.cfgRd aux p)
  | 0x04 => some (.sessionStart aux p)
  | 0x05 => some (.sessionEnd aux p)
  | 0x10 => some (.crcRem aux p)
  | 0x11 => some (.crcAppend aux p)
  | 0x12 => some (.crcCheck aux p)
  | 0x20 => some (.hamEnc aux p)
  | 0x21 => some (.hamDec aux p)
  | 0x30 => some (.ilv aux p)
  | 0x31 => some (.dilv aux p)
  | 0x40 => some (.cbCombine aux p)
  | 0x41 => some (.cbClear aux p)
  | 0x42 => some (.cbRead aux p)
  | 0x50 => some (.pktPush aux p)
  | _ => none

/-- Field `s[i .. i+w)` of a head as a number. -/
def headField (bs : Bits) (i w : Nat) : Nat := bitsVal ((bs.drop i).take w)

/-- Format `CMD` (R91, R92): `op[31:24]`, `aux[23:16]`, `len[15:0]`, then `len` payload bits. -/
def decodeCmd (bs : Bits) : Except DecodeError (Instr × Bits) :=
  let op := BitVec.ofNat 8 (headField bs 0 8)
  let aux := BitVec.ofNat 8 (headField bs 8 8)
  let len := headField bs 16 16
  let body := bs.drop 32
  if bs.length < 32 ∨ body.length < len then .error .incomplete
  else match commandOf op aux (body.take len) with
    | some i => .ok (i, body.drop len)
    | none => .error (.badOp op (body.drop len))

/-- Format `FRM` (R96): `seq[23:8]`, `flen[7:0]`, then `flen` frame bits. -/
def decodeFrm (bs : Bits) : Except DecodeError (Instr × Bits) :=
  let seq := BitVec.ofNat 16 (headField bs 0 16)
  let flen := headField bs 16 8
  let body := bs.drop 24
  if bs.length < 24 ∨ body.length < flen then .error .incomplete
  else .ok (.frmIn seq (BitVec.ofNat 8 flen) (body.take flen), body.drop flen)

/-- Format `CTL` (R95): `kind[16]`, 1 for ACK and 0 for NACK, and `seq[15:0]`. -/
def decodeCtl (bs : Bits) : Except DecodeError (Instr × Bits) :=
  let seq := BitVec.ofNat 16 (headField bs 1 16)
  match bs with
  | [] => .error .incomplete
  | kind :: _ =>
    if bs.length < 17 then .error .incomplete
    else .ok (if kind then .ctlAck seq else .ctlNack seq, bs.drop 17)

/-- A strobe (R96, R99): one asserted bit. -/
def decodeStrobe (i : Instr) : Bits → Except DecodeError (Instr × Bits)
  | [] => .error .incomplete
  | true :: rest => .ok (i, rest)
  | false :: _ => .error .noStrobe

/-- The operation the bits at a port present, and the bits that follow it. -/
def decode (p : Port) (bs : Bits) : Except DecodeError (Instr × Bits) :=
  match p with
  | .cmd => decodeCmd bs
  | .frmIn => decodeFrm bs
  | .frmLost => decodeStrobe .frmLost bs
  | .ctlIn => decodeCtl bs
  | .tick => decodeStrobe .tick bs
  | .rst => decodeStrobe .rst bs

/-! ## The encoder -/

/-- The port an operation is presented on; the internal steps "are not presented on any port" (R90). -/
def portOf : Instr → Option Port
  | .nop _ _ | .reset _ _ | .cfgWr _ _ | .cfgRd _ _ | .sessionStart _ _ | .sessionEnd _ _ => some .cmd
  | .crcRem _ _ | .crcAppend _ _ | .crcCheck _ _ | .hamEnc _ _ | .hamDec _ _ => some .cmd
  | .ilv _ _ | .dilv _ _ | .cbCombine _ _ | .cbClear _ _ | .cbRead _ _ | .pktPush _ _ => some .cmd
  | .frmIn _ _ _ => some .frmIn
  | .frmLost => some .frmLost
  | .ctlAck _ | .ctlNack _ => some .ctlIn
  | .tick => some .tick
  | .rst => some .rst
  | .txSend | .txAdvance | .rxDecode | .rxRespond => none

/-- R91: the header value is `op * 2^24 + aux * 2^16 + len`; the payload follows (R92). -/
def encodeCmd (op : BitVec 8) (aux : BitVec 8) (p : Bits) : Bits :=
  wordBits 32 (op.toNat * 2 ^ 24 + aux.toNat * 2 ^ 16 + p.length) ++ p

/-- The head of format `FRM` (R96). -/
def frmHead (seq : SeqNum) (flen : BitVec 8) : BitVec 24 := seq ++ flen

/-- The word of format `CTL` (R95). -/
def ctlWord (kind : Bool) (seq : SeqNum) : BitVec 17 := BitVec.ofBool kind ++ seq

/-- The bits an operation stands as on its port; an internal step has none. -/
def encode : Instr → Bits
  | .nop aux p => encodeCmd 0x00 aux p
  | .reset aux p => encodeCmd 0x01 aux p
  | .cfgWr aux p => encodeCmd 0x02 aux p
  | .cfgRd aux p => encodeCmd 0x03 aux p
  | .sessionStart aux p => encodeCmd 0x04 aux p
  | .sessionEnd aux p => encodeCmd 0x05 aux p
  | .crcRem aux p => encodeCmd 0x10 aux p
  | .crcAppend aux p => encodeCmd 0x11 aux p
  | .crcCheck aux p => encodeCmd 0x12 aux p
  | .hamEnc aux p => encodeCmd 0x20 aux p
  | .hamDec aux p => encodeCmd 0x21 aux p
  | .ilv aux p => encodeCmd 0x30 aux p
  | .dilv aux p => encodeCmd 0x31 aux p
  | .cbCombine aux p => encodeCmd 0x40 aux p
  | .cbClear aux p => encodeCmd 0x41 aux p
  | .cbRead aux p => encodeCmd 0x42 aux p
  | .pktPush aux p => encodeCmd 0x50 aux p
  | .frmIn seq flen bits => wordBits 24 (frmHead seq flen).toNat ++ bits
  | .ctlAck seq => wordBits 17 (ctlWord true seq).toNat
  | .ctlNack seq => wordBits 17 (ctlWord false seq).toNat
  | .frmLost | .tick | .rst => [true]
  | .txSend | .txAdvance | .rxDecode | .rxRespond => []

/-! ## The words of the opcode table -/

/-- The port and the wire bits meant by a word of the opcode table, which names no port (log 7): 32 bits are a command
header; 24 bits are a control word (17 bits in whole bytes) when they fit one and else a frame head; 8 bits are the
strobe `TICK`. The tail is as many zeros as the head asks for. -/
def tableWire (nbits w : Nat) : Option (Port × Bits) :=
  if nbits = 32 then some (.cmd, wordBits 32 w ++ zeros (w % 2 ^ 16))
  else if nbits = 24 then
    if w < 2 ^ 17 then some (.ctlIn, wordBits 17 w)
    else some (.frmIn, wordBits 24 w ++ zeros (w % 2 ^ 8))
  else if nbits = 17 then some (.ctlIn, wordBits 17 w)
  else if nbits = 8 ∨ nbits = 1 then some (.tick, wordBits 1 w)
  else none

/-- The operation the decoder reads from a word numbered as the opcode table numbers it. -/
def decodeTableWord (nbits w : Nat) : Option Instr :=
  match tableWire nbits w with
  | some (p, bs) =>
    match decode p bs with
    | .ok (i, _) => some i
    | .error _ => none
  | none => none

end Sys2Proof
end

