-- ==== Sys2Proof/Config.lean ====
section
/-! DEFINITION. What is fixed for the machine (rule R5), and the values the spec leaves open (free values). -/

namespace Sys2Proof.Config

/-- Number of cells of the combining buffer: `71 + R_MAX` (R5, R36). -/
def cbCells : Nat := 87

/-- `ILV_M_PIPE` (R5, R176): codewords in one interleaver batch inside the pipelines. -/
def ilvMPipe : Nat := 1

/-- Free value (log 9): the generator sequence `g` when `GEN = 0`. R23: "`GEN = 0` has no generator sequence at all".
Every operation the spec lets evaluate a generator refuses `GEN = 0` first or runs only in a session, which `GEN = 0`
cannot start. -/
opaque noGenerator : Bits

/-- Free value (log 10): the new cell and the combined bit of the combining rules 2 and 3, for which "no combining
function is defined" (U2 of 93_implementation_defined.md, R27). -/
opaque reservedCombine : BitVec 2 → AccCell → Bool → AccCell × Bool

end Sys2Proof.Config
end

