-- ==== Sys2Proof/Machine/State.lean ====
section
/-! DEFINITION. The architectural state of HARQ-CORE (rules R20 to R41), and the link around it (R39, R195). -/

namespace Sys2Proof.Machine

/-- The sender controller's states (R31); codes 6 and 7 do not exist. -/
inductive TxState where
  | idle | encoding | awaitingAck | acked | retrying | exhausted
deriving DecidableEq, Repr

/-- The receiver controller's states (R32). -/
inductive RxState where
  | waitingFrame | decoding | validatedAck | invalidatedNack
deriving DecidableEq, Repr

/-- The conditions that are ever produced (R300); codes 7, 14 and 15 are not among them. -/
inductive Cond where
  | ok | malformedFrame | invalidSyndrome | crcMismatch | channelLoss | retryBudgetExhausted | configViolation
  | badOp | busy | lenErr | badIdx | readOnly | seqFull
deriving DecidableEq, Repr

/-- The configuration registers (R22). -/
structure Cfg where
  gen : BitVec 17
  variant : BitVec 1
  timeout : Count
  maxAtt : BitVec 8
  combRule : BitVec 2
deriving DecidableEq, Repr

/-- The sender: its state (R31), the retransmission record (R33) and `TIME` (R34). -/
structure Tx where
  state : TxState
  seq : SeqNum
  attempts : BitVec 8
  outstanding : Bool
  deadline : Count
  pay : Bits
  seqOvf : Bool
  time : Count
deriving DecidableEq, Repr

/-- The receiver: its state (R32), its latches (R35) and `LAST_ERR` (R37). -/
structure Rx where
  state : RxState
  frm : Bits
  len : BitVec 8
  seq : SeqNum
  res : Cond
  cor : Bool
  lastErr : Cond
deriving DecidableEq, Repr

/-- The combining buffer (R36). -/
structure Cb where
  acc : List AccCell
  empty : Bool
  seq : SeqNum
  cnt : BitVec 8
deriving DecidableEq, Repr

/-- The counters the sender's operations increment (R38). -/
structure TxCounters where
  frames : Count
  retx : Count
  acked : Count
  exhausted : Count
  stale : Count
  timeout : Count
deriving DecidableEq, Repr

/-- The counters the receiver's operations increment (R38). -/
structure RxCounters where
  lost : Count
  rxframes : Count
  valid : Count
  crcfail : Count
  synfail : Count
  malformed : Count
  corrected : Count
deriving DecidableEq, Repr

/-- A word of 32 bits and its bit-sequence tail: formats `RSP` (R93) and `RXO` (R98). -/
structure TailedWord where
  word : BitVec 32
  tail : Bits
deriving DecidableEq, Repr

/-- A frame in flight or emitted: format `FRM` (R96). -/
structure Frame where
  head : BitVec 24
  bits : Bits
deriving DecidableEq, Repr

/-- Whose turn it is (R13), with the choice the contract of 43_channel.md leaves to that agent (log 2). -/
inductive Turn where
  /-- The host presents further bits on `CMD`; no operation of the core. -/
  | present (bits : Bits)
  /-- The command presented on `CMD` is executed (R287). -/
  | host
  /-- The channel delivers its oldest frame with the tail XORed with `mask` (R186 (b)). -/
  | channelDeliver (mask : Bits)
  /-- The channel loses its oldest frame and reports it by `FRM_LOST` (R186 (a)). -/
  | channelLose
  /-- The channel discards its oldest frame with no operation of the core (R252; log 15), in every state (log 23). -/
  | channelDiscard
  /-- A frame of a peer's sender enters the channel (R315, R352; log 12); no operation of the core. -/
  | peerFrame (frame : Frame)
  /-- The oldest control word stands at `CTL_IN` (R308 (a); log 13); no operation of the core. -/
  | controlPresent
  /-- The control path delivers its oldest word (R192). -/
  | controlDeliver
  /-- The control path loses its oldest word (R192); no operation of the core. -/
  | controlLose
  /-- A control word of a peer's receiver enters the control path (R315, R352; log 12); no operation of the core. -/
  | peerControl (word : BitVec 17)
  /-- The clock: one `TICK` (R193). -/
  | clock
  /-- The platform: one `RST` (R340). -/
  | platform
  /-- The sender controller takes the internal step whose guard holds. -/
  | sender
  /-- The receiver controller takes the internal step whose guard holds. -/
  | receiver
deriving DecidableEq, Repr

/-- The input side of the link around the core (R39 (a) to (c), R195): not state of the core. -/
structure Env where
  cmdIn : Bits
  chan : List Frame
  ctlPath : List (BitVec 17)
  ctlReady : Bool
  turns : List Turn
deriving DecidableEq, Repr

/-- The ordered logs of what the output ports have emitted (R39 (d), R63), oldest first. -/
structure Out where
  rsp : List TailedWord
  frmOut : List Frame
  ctlOut : List (BitVec 17)
  txOut : List (BitVec 32)
  rxOut : List TailedWord
deriving DecidableEq, Repr

/-- The state of HARQ-CORE (R20) and, in `env` and `out`, of the link around it (R39). -/
structure State where
  cfg : Cfg
  run : Bool
  cfgErr : Bool
  tx : Tx
  rx : Rx
  cb : Cb
  txCnt : TxCounters
  rxCnt : RxCounters
  env : Env
  out : Out
deriving DecidableEq, Repr

/-- Reasons to stop with a fault: none. HARQ-CORE reports every condition in band (R300) and "there is no trap handler"
(R11); no step of it stops. -/
inductive Fault where
deriving DecidableEq, Repr

/-- Reasons to refuse an operation. -/
inductive Refusal where
  /-- Raised by an arm of `exec` whose operation has no meaning yet; safe. No arm raises it. -/
  | notModelled (mnemonic : String)
deriving DecidableEq, Repr

/-- R41: the configuration registers after reset. -/
def Cfg.reset : Cfg := { gen := 0x0000D, variant := 0, timeout := 2, maxAtt := 4, combRule := 0 }

/-- R41: the sender after reset; `pay` is unspecified there and empty here (log 1). -/
def Tx.reset : Tx :=
  { state := .idle, seq := 0, attempts := 0, outstanding := false, deadline := 0, pay := [], seqOvf := false, time := 0 }

/-- R41: the receiver after reset; the latches are unspecified there and empty or zero here (log 1). -/
def Rx.reset : Rx :=
  { state := .waitingFrame, frm := [], len := 0, seq := 0, res := .ok, cor := false, lastErr := .ok }

/-- R41: the combining buffer after reset. -/
def Cb.reset : Cb := { acc := List.replicate Config.cbCells 0, empty := true, seq := 0, cnt := 0 }

/-- R38: all the sender's counters at 0. -/
def TxCounters.zero : TxCounters := { frames := 0, retx := 0, acked := 0, exhausted := 0, stale := 0, timeout := 0 }

/-- R38: all the receiver's counters at 0. -/
def RxCounters.zero : RxCounters :=
  { lost := 0, rxframes := 0, valid := 0, crcfail := 0, synfail := 0, malformed := 0, corrected := 0 }

/-- The machine right after reset (R41), with nothing presented, in flight or emitted (log 12). -/
def State.reset : State where
  cfg := Cfg.reset
  run := false
  cfgErr := false
  tx := Tx.reset
  rx := Rx.reset
  cb := Cb.reset
  txCnt := TxCounters.zero
  rxCnt := RxCounters.zero
  env := { cmdIn := [], chan := [], ctlPath := [], ctlReady := false, turns := [] }
  out := { rsp := [], frmOut := [], ctlOut := [], txOut := [], rxOut := [] }

end Sys2Proof.Machine
end

