-- ==== Sys2Proof/Machine/Operands.lean ====
section
/-! DEFINITION. Quantities derived from the configuration (rule R6) and the register index space (rule R61). -/

namespace Sys2Proof.Machine

/-- R6, R23: the generator sequence `g`, the bits of `GEN` without leading zeros; free when `GEN = 0` (log 9). -/
def genSeq (c : Cfg) : Bits :=
  if c.gen = 0 then Config.noGenerator else stripZeros (wordBits 17 c.gen.toNat)

/-- R6: `r`, the degree of the generator and the number of CRC bits. -/
def degR (c : Cfg) : Nat := (genSeq c).length - 1

/-- R6: `K`, the data bits of one Hamming block and the payload length. -/
def dataK (v : BitVec 1) : Nat := if v = 0 then 4 else 64

/-- R6: `MP`, the number of parity bits. -/
def parityMP (v : BitVec 1) : Nat := if v = 0 then 3 else 7

/-- R6: `N = K + MP`, the coded bits of one Hamming block. -/
def blockN (v : BitVec 1) : Nat := dataK v + parityMP v

/-- R6: `W = N + r`, the length of one frame. -/
def frameW (c : Cfg) : Nat := blockN c.variant + degR c

/-- The registers of R61. -/
inductive Reg where
  | gen | variant | timeout | maxAtt | combRule
  | status | txSeq | attempts | deadline | time | cbSeq | cbCnt
  | cntFrames | cntLost | cntRetx | cntAcked | cntExhausted | cntRxframes | cntValid | cntCrcfail | cntSynfail
  | cntMalformed | cntCorrected | cntStale | cntTimeout
deriving DecidableEq, Repr

/-- R61: the register an index names; `none` for a reserved index. -/
def regOf (idx : BitVec 8) : Option Reg :=
  match idx.toNat with
  | 0x00 => some .gen
  | 0x01 => some .variant
  | 0x02 => some .timeout
  | 0x03 => some .maxAtt
  | 0x04 => some .combRule
  | 0x10 => some .status
  | 0x11 => some .txSeq
  | 0x12 => some .attempts
  | 0x13 => some .deadline
  | 0x14 => some .time
  | 0x15 => some .cbSeq
  | 0x16 => some .cbCnt
  | 0x20 => some .cntFrames
  | 0x21 => some .cntLost
  | 0x22 => some .cntRetx
  | 0x23 => some .cntAcked
  | 0x24 => some .cntExhausted
  | 0x25 => some .cntRxframes
  | 0x26 => some .cntValid
  | 0x27 => some .cntCrcfail
  | 0x28 => some .cntSynfail
  | 0x29 => some .cntMalformed
  | 0x2A => some .cntCorrected
  | 0x2B => some .cntStale
  | 0x2C => some .cntTimeout
  | _ => none

/-- R61: the width of a register. -/
def regWidth : Reg → Nat
  | .gen => 17
  | .variant => 1
  | .timeout => 32
  | .maxAtt => 8
  | .combRule => 2
  | .txSeq | .cbSeq => 16
  | .attempts | .cbCnt => 8
  | .status | .deadline | .time => 32
  | .cntFrames | .cntLost | .cntRetx | .cntAcked | .cntExhausted | .cntRxframes | .cntValid | .cntCrcfail => 32
  | .cntSynfail | .cntMalformed | .cntCorrected | .cntStale | .cntTimeout => 32

/-- R61: the configuration registers, which a host may write. -/
def regWritable : Reg → Bool
  | .gen | .variant | .timeout | .maxAtt | .combRule => true
  | _ => false

/-- R94: the configuration with one register replaced by a value, zero-extended to its width. A read-only register is
not written here: `CFG_WR` refuses it first (R283). -/
def writeCfg (r : Reg) (v : Nat) (c : Cfg) : Cfg :=
  match r with
  | .gen => { c with gen := BitVec.ofNat 17 v }
  | .variant => { c with variant := BitVec.ofNat 1 v }
  | .timeout => { c with timeout := BitVec.ofNat 32 v }
  | .maxAtt => { c with maxAtt := BitVec.ofNat 8 v }
  | .combRule => { c with combRule := BitVec.ofNat 2 v }
  | _ => c

end Sys2Proof.Machine
end

