-- ==== Sys2Proof/Machine/Flags.lean ====
section
/-! DEFINITION. State codes, condition codes, `STATUS`, and the predicates that guard the operations. -/

namespace Sys2Proof.Machine

/-- R31: the code of a sender state. -/
def txCode : TxState → BitVec 3
  | .idle => 0
  | .encoding => 1
  | .awaitingAck => 2
  | .acked => 3
  | .retrying => 4
  | .exhausted => 5

/-- R32: the code of a receiver state. -/
def rxCode : RxState → BitVec 2
  | .waitingFrame => 0
  | .decoding => 1
  | .validatedAck => 2
  | .invalidatedNack => 3

/-- R300: the condition codes. -/
def condCode : Cond → BitVec 4
  | .ok => 0
  | .malformedFrame => 1
  | .invalidSyndrome => 2
  | .crcMismatch => 3
  | .channelLoss => 4
  | .retryBudgetExhausted => 5
  | .configViolation => 6
  | .badOp => 8
  | .busy => 9
  | .lenErr => 10
  | .badIdx => 11
  | .readOnly => 12
  | .seqFull => 13

/-- R29: `STATUS`. -/
def statusWord (s : State) : BitVec 32 :=
  (0 : BitVec 16) ++ condCode s.rx.lastErr ++ (0 : BitVec 2) ++ BitVec.ofBool s.tx.seqOvf ++ BitVec.ofBool s.cfgErr ++
    BitVec.ofBool (!s.cb.empty) ++ BitVec.ofBool s.tx.outstanding ++ rxCode s.rx.state ++ txCode s.tx.state ++
    BitVec.ofBool s.run

/-- R61: the value of a register as an unsigned integer. -/
def readReg (s : State) : Reg → Nat
  | .gen => s.cfg.gen.toNat
  | .variant => s.cfg.variant.toNat
  | .timeout => s.cfg.timeout.toNat
  | .maxAtt => s.cfg.maxAtt.toNat
  | .combRule => s.cfg.combRule.toNat
  | .status => (statusWord s).toNat
  | .txSeq => s.tx.seq.toNat
  | .attempts => s.tx.attempts.toNat
  | .deadline => s.tx.deadline.toNat
  | .time => s.tx.time.toNat
  | .cbSeq => s.cb.seq.toNat
  | .cbCnt => s.cb.cnt.toNat
  | .cntFrames => s.txCnt.frames.toNat
  | .cntLost => s.rxCnt.lost.toNat
  | .cntRetx => s.txCnt.retx.toNat
  | .cntAcked => s.txCnt.acked.toNat
  | .cntExhausted => s.txCnt.exhausted.toNat
  | .cntRxframes => s.rxCnt.rxframes.toNat
  | .cntValid => s.rxCnt.valid.toNat
  | .cntCrcfail => s.rxCnt.crcfail.toNat
  | .cntSynfail => s.rxCnt.synfail.toNat
  | .cntMalformed => s.rxCnt.malformed.toNat
  | .cntCorrected => s.rxCnt.corrected.toNat
  | .cntStale => s.txCnt.stale.toNat
  | .cntTimeout => s.txCnt.timeout.toNat

/-- R30: the block is quiescent. -/
def quiescent (s : State) : Bool :=
  !s.run && decide (s.tx.state = .idle) && decide (s.rx.state = .waitingFrame)

/-- R28: the generator is legal (R23). -/
def genOk (c : Cfg) : Bool := decide (2 ≤ c.gen.toNat) && c.gen.getLsbD 0

/-- R28: the combining rule is legal (R27). -/
def ruleOk (c : Cfg) : Bool := decide (c.combRule.toNat ≤ 1)

/-- R28: `cfg_ok`. -/
def cfgOk (c : Cfg) : Bool :=
  genOk c && decide (1 ≤ c.timeout.toNat) && decide (1 ≤ c.maxAtt.toNat) && ruleOk c

/-- R63, R73: the port `FRM_IN` accepts. -/
def frmReady (s : State) : Bool := s.run && decide (s.rx.state = .waitingFrame)

/-- R63, R73: the port `CTL_IN` accepts. -/
def ctlReadyToTake (s : State) : Bool := decide (s.tx.state = .awaitingAck)

/-- R224: the guard of `TX_SEND`. -/
def txSendReady (s : State) : Bool := decide (s.tx.state = .encoding) || decide (s.tx.state = .retrying)

/-- R229: the guard of `TX_ADVANCE`. -/
def txAdvanceReady (s : State) : Bool := decide (s.tx.state = .acked) || decide (s.tx.state = .exhausted)

/-- R253: the guard of `RX_DECODE`. -/
def rxDecodeReady (s : State) : Bool := decide (s.rx.state = .decoding)

/-- R254: the guard of `RX_RESPOND`. -/
def rxRespondReady (s : State) : Bool :=
  decide (s.rx.state = .validatedAck) || decide (s.rx.state = .invalidatedNack)

/-- R100: the guards of port events and internal steps; a host command is always accepted (R287). -/
def ready (i : Instr) (s : State) : Bool :=
  match i with
  | .frmIn _ _ _ | .frmLost => frmReady s
  | .ctlAck _ | .ctlNack _ => ctlReadyToTake s
  | .txSend => txSendReady s
  | .txAdvance => txAdvanceReady s
  | .rxDecode => rxDecodeReady s
  | .rxRespond => rxRespondReady s
  | .nop _ _ | .reset _ _ | .cfgWr _ _ | .cfgRd _ _ | .sessionStart _ _ | .sessionEnd _ _ => true
  | .crcRem _ _ | .crcAppend _ _ | .crcCheck _ _ | .hamEnc _ _ | .hamDec _ _ => true
  | .ilv _ _ | .dilv _ _ | .cbCombine _ _ | .cbClear _ _ | .cbRead _ _ | .pktPush _ _ => true
  | .tick | .rst => true

end Sys2Proof.Machine
end

