-- ==== Sys2Proof/Machine/Ops.lean ====
section
/-! DEFINITION. The shared operations: emitting on the output ports, the response of a command and its order of checks,
reset, the combining buffer's clear and commit, the sender's failure, and the raising of a receiver condition.

There is no exception entry and no return (R310, R311): "no condition saves state, changes a mode, switches a stack or
sends control to a vector". What stands in their place is written here once per agent: a host command's refusal
(`refuse`), a receiver condition (`rxRaise`) with its way back (`rxEmitControl`), a sender failure (`txFail`). -/

namespace Sys2Proof.Machine

/-- The outcome of an operation: every one of HARQ-CORE goes on. -/
abbrev Result := Host.Outcome State Fault Refusal

/-! ## Output words -/

/-- R93: `status[31:28]`, zero, `flag[24]`, `rlen[23:0]`, then the data. -/
def rspWord (st : Cond) (flag : Bool) (data : Bits) : TailedWord where
  word := condCode st ++ (0 : BitVec 3) ++ BitVec.ofBool flag ++ BitVec.ofNat 24 data.length
  tail := data

/-- R97: `code[31:28]`, zero, `retx[23:16]`, `seq[15:0]`. -/
def txoWord (code : Cond) (retx : BitVec 8) (seq : SeqNum) : BitVec 32 :=
  condCode code ++ (0 : BitVec 4) ++ retx ++ seq

/-- R98: `code[31:28]`, zero, `corrected[24]`, zero, `seq[15:0]`, then the payload bits. -/
def rxoWord (code : Cond) (cor : Bool) (seq : SeqNum) (data : Bits) : TailedWord where
  word := condCode code ++ (0 : BitVec 3) ++ BitVec.ofBool cor ++ (0 : BitVec 8) ++ seq
  tail := data

/-! ## Emitting (R11: appended to the port's ordered output) -/

/-- `respond(status, flag, data)` (R11, R93). -/
def respond (st : Cond) (flag : Bool) (data : Bits) (s : State) : State :=
  { s with out := { s.out with rsp := s.out.rsp ++ [rspWord st flag data] } }

/-- A response with a status that is not `OK`: no flag, no data (R93). -/
def refuse (st : Cond) (s : State) : State := respond st false [] s

/-- `emit FRM_OUT` (R96); the frame enters the channel's queue at the tail (R185). -/
def emitFrame (f : Frame) (s : State) : State :=
  { s with out := { s.out with frmOut := s.out.frmOut ++ [f] }, env := { s.env with chan := s.env.chan ++ [f] } }

/-- `emit CTL_OUT` (R95); the word enters the control path's queue at the tail (R192). -/
def emitControl (w : BitVec 17) (s : State) : State :=
  { s with out := { s.out with ctlOut := s.out.ctlOut ++ [w] }, env := { s.env with ctlPath := s.env.ctlPath ++ [w] } }

/-- `emit TX_OUT` (R97). -/
def emitTxOut (w : BitVec 32) (s : State) : State :=
  { s with out := { s.out with txOut := s.out.txOut ++ [w] } }

/-- `emit RX_OUT` (R98). -/
def emitRxOut (w : TailedWord) (s : State) : State :=
  { s with out := { s.out with rxOut := s.out.rxOut ++ [w] } }

/-! ## Host commands -/

/-- R103, R308 (b): the first failing check gives the status; a refused command changes nothing (R287); with every check
passed the outcome is `done`. A check is a condition that must hold and the status it fails with. -/
def runCommand (checks : List (Bool × Cond)) (done : State) (s : State) : Result :=
  match checks.find? (fun c => !c.1) with
  | some c => .next (refuse c.2 s)
  | none => .next done

/-- R101: an illegal opcode. -/
def answerBadOp (s : State) : State := refuse .badOp s

/-! ## Reset -/

/-- R41, R282, R340: every element of the core at its reset value; the link around it keeps its content (R341). -/
def resetCore (s : State) : State := { State.reset with env := s.env, out := s.out }

/-! ## The combining buffer -/

/-- R201: `cb_clear()`. -/
def cbClear (s : State) : State :=
  { s with cb := { s.cb with acc := List.replicate Config.cbCells 0, cnt := 0, empty := true } }

/-- R203: the cells after `acc'` is written to cells `0 .. W-1`. -/
def commitCells (w : Nat) (acc' acc : List AccCell) : List AccCell :=
  (List.range Config.cbCells).map fun i => if i < w then acc'.getD i 0 else acc.getD i 0

/-- R203: commit. -/
def cbCommit (acc' : List AccCell) (s : State) : State :=
  { s with
    cb :=
      { s.cb with
        acc := commitCells (frameW s.cfg) acc' s.cb.acc
        cnt := if s.cb.cnt = 255 then 255 else s.cb.cnt + 1
        empty := false } }

/-! ## The sender -/

/-- R223: a control word of another packet: only `CNT_STALE` changes. -/
def ctlStale (s : State) : State := { s with txCnt := { s.txCnt with stale := s.txCnt.stale + 1 } }

/-- R227: `tx_fail()`; on the last attempt it raises `RetryBudgetExhausted` (R305). -/
def txFail (s : State) : State :=
  let a := s.tx.attempts + 1
  if a < s.cfg.maxAtt then
    { s with tx := { s.tx with outstanding := false, attempts := a, state := .retrying } }
  else
    { s with
      tx := { s.tx with outstanding := false, attempts := a, state := .exhausted }
      txCnt := { s.txCnt with exhausted := s.txCnt.exhausted + 1 } }

/-! ## The receiver -/

/-- R300, R320: what every result of `RX_DECODE` records: the latches, `LAST_ERR`, `CNT_CORRECTED`, one word on
`RX_OUT`, and the state that answers it. -/
def rxRecord (code : Cond) (cor : Bool) (data : Bits) (st : RxState) (s : State) : State :=
  emitRxOut (rxoWord code cor s.rx.seq data)
    { s with
      rx := { s.rx with res := code, cor := cor, lastErr := code, state := st }
      rxCnt := { s.rxCnt with corrected := if cor then s.rxCnt.corrected + 1 else s.rxCnt.corrected } }

/-- `raise` of a receiver condition (R301 to R303): no tail, and the receiver goes to `InvalidatedNack`. -/
def rxRaise (code : Cond) (cor : Bool) (s : State) : State := rxRecord code cor [] .invalidatedNack s

/-- R254, R311: the control word that answers a frame, and the way back to `WaitingFrame`. -/
def rxEmitControl (ack : Bool) (s : State) : State :=
  emitControl (ctlWord ack s.rx.seq) { s with rx := { s.rx with state := .waitingFrame } }

end Sys2Proof.Machine
end

