-- ==== Sys2Proof/Machine/Combiner.lean ====
section
/-! DEFINITION. The soft-combining accumulator (44_combiner.md). -/

namespace Sys2Proof.Machine

/-- R11: `sat_8`, clamped to -127 .. +127. -/
def sat8 (v : Int) : AccCell := BitVec.ofInt 8 (max (-127) (min 127 v))

/-- R202: rule OR on one cell. The combined bit is the new cell, 0 or 1 (R42 (e); log 11). -/
def combineOr (a : AccCell) (d : Bool) : AccCell × Bool :=
  let a' := BitVec.ofInt 8 (max a.toInt (if d then 1 else 0))
  (a', a' != 0)

/-- R202: rule MAJ on one cell; on a tie the newest reception's bit. -/
def combineMaj (a : AccCell) (d : Bool) : AccCell × Bool :=
  let a' := sat8 (a.toInt + if d then 1 else -1)
  (a', if 0 < a'.toInt then true else if a'.toInt < 0 then false else d)

/-- R202: one lane of `combine`; rules 2 and 3 have no combining function (log 10). -/
def combineCell (rule : BitVec 2) (a : AccCell) (d : Bool) : AccCell × Bool :=
  if rule = 0 then combineOr a d
  else if rule = 1 then combineMaj a d
  else Config.reservedCombine rule a d

/-- R202: `combine(acc, d, rule)` on cells `0 .. W-1`: the new cells and the combined word. -/
def combine (rule : BitVec 2) (w : Nat) (acc : List AccCell) (d : Bits) : List AccCell × Bits :=
  let lane := fun i => combineCell rule (acc.getD i 0) (d.getD i false)
  ((List.range w).map fun i => (lane i).1, (List.range w).map fun i => (lane i).2)

/-- R204: the effect of `CB_COMBINE` on a reception of `W` bits. -/
def combineAndRespond (p : Bits) (s : State) : State :=
  let r := combine s.cfg.combRule (frameW s.cfg) s.cb.acc p
  respond .ok false r.2 (cbCommit r.1 s)

/-- R204: `CB_COMBINE`. -/
def execCbCombine (_aux : BitVec 8) (p : Bits) (s : State) : Result :=
  runCommand
    [(quiescent s, .busy), (genOk s.cfg && ruleOk s.cfg, .configViolation),
      (decide (p.length = frameW s.cfg), .lenErr)]
    (combineAndRespond p s) s

/-- R205: `CB_CLEAR`. -/
def execCbClear (_aux : BitVec 8) (p : Bits) (s : State) : Result :=
  runCommand [(quiescent s, .busy), (p.isEmpty, .lenErr)] (respond .ok false [] (cbClear s)) s

/-- R207: the data of `CB_READ`: the 8 bits of each cell in use, most significant first. -/
def cbReadBits (s : State) : Bits :=
  (List.range (frameW s.cfg)).flatMap fun i => wordBits 8 (s.cb.acc.getD i 0).toNat

/-- R207: `CB_READ`. -/
def execCbRead (_aux : BitVec 8) (p : Bits) (s : State) : Result :=
  runCommand [(quiescent s, .busy), (genOk s.cfg, .configViolation), (p.isEmpty, .lenErr)]
    (respond .ok false (cbReadBits s) s) s

end Sys2Proof.Machine
end

