-- ==== Sys2Proof/Machine/Crc.lean ====
section
/-! DEFINITION. The CRC unit (40_crc.md). -/

namespace Sys2Proof.Machine

/-- R121: `n` rounds of the long division on the part of the working sequence still to be divided. A round XORs the
generator onto the front when the first bit is 1; that bit is then 0 and is not looked at again. -/
def polymodRounds (g : Bits) : Nat → Bits → Bits
  | 0, w => w
  | _ + 1, [] => []
  | n + 1, b :: w => polymodRounds g n (if b then (xorFront (b :: w) g).tail else w)

/-- R121: `polymod(s, g)`, exactly `r` bits. -/
def polymod (s g : Bits) : Bits :=
  let r := g.length - 1
  if r ≤ s.length then polymodRounds g (s.length - r) s else zeros (r - s.length) ++ s

/-- R122: `crc_rem(p, g) = polymod(p ++ 0^r, g)`. -/
def crcRem (p g : Bits) : Bits := polymod (p ++ zeros (g.length - 1)) g

/-- R122: `crc_append(p, g) = p ++ crc_rem(p, g)`. -/
def crcAppend (p g : Bits) : Bits := p ++ crcRem p g

/-- R123: `crc_check(s, g) = (polymod(s, g) = 0^r)`. -/
def crcCheck (s g : Bits) : Bool := polymod s g == zeros (g.length - 1)

/-- The checks of the three CRC commands, in the order of R103. -/
def crcChecks (s : State) : List (Bool × Cond) := [(quiescent s, .busy), (genOk s.cfg, .configViolation)]

/-- R124: `CRC_REM`. -/
def execCrcRem (_aux : BitVec 8) (p : Bits) (s : State) : Result :=
  runCommand (crcChecks s) (respond .ok false (crcRem p (genSeq s.cfg)) s) s

/-- R125: `CRC_APPEND`. -/
def execCrcAppend (_aux : BitVec 8) (p : Bits) (s : State) : Result :=
  runCommand (crcChecks s) (respond .ok false (crcAppend p (genSeq s.cfg)) s) s

/-- R126: `CRC_CHECK`. -/
def execCrcCheck (_aux : BitVec 8) (p : Bits) (s : State) : Result :=
  runCommand (crcChecks s) (respond .ok (crcCheck p (genSeq s.cfg)) [] s) s

end Sys2Proof.Machine
end

