-- ==== Sys2Proof/Machine/Hamming.lean ====
section
/-! DEFINITION. The Hamming unit (41_hamming.md). Positions run from 1 (R10). -/

namespace Sys2Proof.Machine

/-- R141: the positions of a block, 1 to `N`. -/
def positions (v : BitVec 1) : List Nat := List.range' 1 (blockN v)

/-- R10: a power of two, that is a parity position. -/
def isParityPos (q : Nat) : Bool := q &&& (q - 1) == 0

/-- R141: the data positions `D` in rising order. -/
def dataPositions (v : BitVec 1) : List Nat := (positions v).filter fun q => !isParityPos q

/-- R141: the set `C_j` covered by the parity bit at position `m = 2^j`. -/
def coveredBy (v : BitVec 1) (m : Nat) : List Nat := (positions v).filter fun q => q &&& m != 0

/-- R142, first loop: data bit `d[t]` at position `D[t]`, zero at the parity positions. -/
def placeData (v : BitVec 1) (d : Bits) : Bits :=
  (positions v).map fun q => if isParityPos q then false else d.getD ((dataPositions v).idxOf q) false

/-- R142: the parity bit at position `m`, the XOR over its set without itself. -/
def parityBit (v : BitVec 1) (c : Bits) (m : Nat) : Bool :=
  xorAll (((coveredBy v m).filter fun q => q != m).map (bitAt c))

/-- R142: `ham_enc(d)`. -/
def hamEnc (v : BitVec 1) (d : Bits) : Bits :=
  let c := placeData v d
  (positions v).map fun q => if isParityPos q then parityBit v c q else bitAt c q

/-- R143: the syndrome `S`. -/
def syndrome (v : BitVec 1) (c : Bits) : Nat :=
  ((List.range (parityMP v)).map fun j =>
    if xorAll ((coveredBy v (2 ^ j)).map (bitAt c)) then 2 ^ j else 0).sum

/-- R143: the data bits of a block. -/
def extractData (v : BitVec 1) (e : Bits) : Bits := (dataPositions v).map (bitAt e)

/-- R143: `ham_dec(c)`: data and `corrected`, or `none` for `InvalidSyndrome`. -/
def hamDec (v : BitVec 1) (c : Bits) : Option (Bits × Bool) :=
  let sy := syndrome v c
  if sy = 0 then some (extractData v c, false)
  else if sy ≤ blockN v then some (extractData v (flipBit c (sy - 1)), true)
  else none

/-- R147: `HAM_ENC`. -/
def execHamEnc (_aux : BitVec 8) (p : Bits) (s : State) : Result :=
  runCommand [(quiescent s, .busy), (decide (p.length = dataK s.cfg.variant), .lenErr)]
    (respond .ok false (hamEnc s.cfg.variant p) s) s

/-- R148: the response of `HAM_DEC` to a block of the right length. -/
def respondHamDec (v : BitVec 1) (p : Bits) (s : State) : State :=
  match hamDec v p with
  | none => refuse .invalidSyndrome s
  | some (d, cor) => respond .ok cor d s

/-- R148: `HAM_DEC`. -/
def execHamDec (_aux : BitVec 8) (p : Bits) (s : State) : Result :=
  runCommand [(quiescent s, .busy), (decide (p.length = blockN s.cfg.variant), .malformedFrame)]
    (respondHamDec s.cfg.variant p s) s

end Sys2Proof.Machine
end

