-- ==== Sys2Proof/Machine/Interleaver.lean ====
section
/-! DEFINITION. The interleaver unit (42_interleaver.md). -/

namespace Sys2Proof.Machine

/-- R171: `ilv(x, M)`: for each column `i`, bit `i` of each codeword `c`. -/
def ilv (x : Bits) (m : Nat) : Bits :=
  let l := x.length / m
  (List.range l).flatMap fun i => (List.range m).map fun c => x.getD (c * l + i) false

/-- R172: `dilv(y, M)`: for each codeword `c`, its bits `i`, found at `i*M + c`. -/
def dilv (y : Bits) (m : Nat) : Bits :=
  let l := y.length / m
  (List.range m).flatMap fun c => (List.range l).map fun i => y.getD (i * m + c) false

/-- R173, R174: the checks of the two commands; `M >= 1` and `len` a multiple of `M`. -/
def ilvChecks (aux : BitVec 8) (p : Bits) (s : State) : List (Bool × Cond) :=
  [(quiescent s, .busy), (decide (aux ≠ 0) && decide (p.length % aux.toNat = 0), .lenErr)]

/-- R173: `ILV`. -/
def execIlv (aux : BitVec 8) (p : Bits) (s : State) : Result :=
  runCommand (ilvChecks aux p s) (respond .ok false (ilv p aux.toNat) s) s

/-- R174: `DILV`. -/
def execDilv (aux : BitVec 8) (p : Bits) (s : State) : Result :=
  runCommand (ilvChecks aux p s) (respond .ok false (dilv p aux.toNat) s) s

end Sys2Proof.Machine
end

