-- ==== Sys2Proof/Machine/Sender.lean ====
section
/-! DEFINITION. The sender controller (45_sender.md). A port event or internal step whose guard does not hold changes
nothing (R100, U13; log 4). -/

namespace Sys2Proof.Machine

/-- R221: `cw_build(p) = ham_enc(p) ++ crc_rem(p, g)`. -/
def cwBuild (c : Cfg) (p : Bits) : Bits := hamEnc c.variant p ++ crcRem p (genSeq c)

/-- R221: `tx_frame(p) = ilv(cw_build(p), 1)`. -/
def txFrame (c : Cfg) (p : Bits) : Bits := ilv (cwBuild c p) Config.ilvMPipe

/-- R222: `PKT_PUSH`. -/
def execPktPush (_aux : BitVec 8) (p : Bits) (s : State) : Result :=
  runCommand
    [(s.run && decide (s.tx.state = .idle), .busy), (!s.tx.seqOvf, .seqFull),
      (decide (p.length = dataK s.cfg.variant), .lenErr)]
    (respond .ok false [] { s with tx := { s.tx with pay := p, attempts := 0, state := .encoding } }) s

/-- R224: the effect of `TX_SEND`. -/
def sendFrame (s : State) : State :=
  emitFrame { head := frmHead s.tx.seq (BitVec.ofNat 8 (frameW s.cfg)), bits := txFrame s.cfg s.tx.pay }
    { s with
      tx := { s.tx with deadline := s.tx.time + s.cfg.timeout, outstanding := true, state := .awaitingAck }
      txCnt :=
        { s.txCnt with
          frames := s.txCnt.frames + 1
          retx := if s.tx.state = .retrying then s.txCnt.retx + 1 else s.txCnt.retx } }

/-- R224: `TX_SEND`. -/
def execTxSend (s : State) : Result := .next (if txSendReady s then sendFrame s else s)

/-- R225: the effect of an ACK with the right tag. -/
def takeAck (s : State) : State :=
  { s with
    tx := { s.tx with outstanding := false, state := .acked }
    txCnt := { s.txCnt with acked := s.txCnt.acked + 1 } }

/-- R225, R223: `CTL_ACK`. -/
def execCtlAck (seq : SeqNum) (s : State) : Result :=
  .next (if ctlReadyToTake s then if seq = s.tx.seq then takeAck s else ctlStale s else s)

/-- R228, R223: `CTL_NACK`. -/
def execCtlNack (seq : SeqNum) (s : State) : Result :=
  .next (if ctlReadyToTake s then if seq = s.tx.seq then txFail s else ctlStale s else s)

/-- R226: the `TICK` about to come expires the deadline. -/
def tickExpires (s : State) : Bool :=
  decide (s.tx.state = .awaitingAck) && decide (s.tx.time + 1 = s.tx.deadline)

/-- R226: `TICK`. -/
def execTick (s : State) : Result :=
  let t := { s with tx := { s.tx with time := s.tx.time + 1 } }
  .next (if tickExpires s then txFail { t with txCnt := { t.txCnt with timeout := t.txCnt.timeout + 1 } } else t)

/-- R229: the outcome word of the packet. -/
def outcomeWord (s : State) : BitVec 32 :=
  if s.tx.state = .acked then txoWord .ok s.tx.attempts s.tx.seq
  else txoWord .retryBudgetExhausted (s.tx.attempts - 1) s.tx.seq

/-- R229: the effect of `TX_ADVANCE`. -/
def advance (s : State) : State :=
  emitTxOut (outcomeWord s)
    { s with
      tx :=
        { s.tx with
          seqOvf := s.tx.seqOvf || decide (s.tx.seq = 0xFFFF)
          seq := s.tx.seq + 1
          attempts := 0
          state := .idle } }

/-- R229: `TX_ADVANCE`. -/
def execTxAdvance (s : State) : Result := .next (if txAdvanceReady s then advance s else s)

end Sys2Proof.Machine
end

