-- ==== Sys2Proof/Machine/Receiver.lean ====
section
/-! DEFINITION. The receiver controller (46_receiver.md). A port event or internal step whose guard does not hold changes
nothing (R100, U13; log 4). -/

namespace Sys2Proof.Machine

/-- R251: the buffer when a frame with tag `seq` arrives. -/
def cbRetag (seq : SeqNum) (s : State) : State :=
  if seq = s.cb.seq then s
  else
    let c := cbClear s
    { c with cb := { c.cb with seq := seq } }

/-- R251: the effect of `FRM_IN`. -/
def acceptFrame (seq : SeqNum) (flen : BitVec 8) (bits : Bits) (s : State) : State :=
  let c := cbRetag seq s
  { c with
    rx := { s.rx with frm := bits, len := flen, seq := seq, state := .decoding }
    rxCnt := { s.rxCnt with rxframes := s.rxCnt.rxframes + 1 } }

/-- R251: `FRM_IN`. -/
def execFrmIn (seq : SeqNum) (flen : BitVec 8) (bits : Bits) (s : State) : Result :=
  .next (if frmReady s then acceptFrame seq flen bits s else s)

/-- R252, R304: the effect of `FRM_LOST`. -/
def loseFrame (s : State) : State :=
  { s with rxCnt := { s.rxCnt with lost := s.rxCnt.lost + 1 }, rx := { s.rx with lastErr := .channelLoss } }

/-- R252: `FRM_LOST`. -/
def execFrmLost (s : State) : Result := .next (if frmReady s then loseFrame s else s)

/-- What `rx_process` returns (R255). -/
structure RxResult where
  code : Cond
  cor : Bool
  data : Bits
  acc : List AccCell
deriving DecidableEq, Repr

/-- R255: `rx_process(f, acc)`. -/
def rxProcess (c : Cfg) (f : Bits) (acc : List AccCell) : RxResult :=
  if f.length = frameW c then
    let r := combine c.combRule (frameW c) acc (dilv f Config.ilvMPipe)
    let n := blockN c.variant
    match hamDec c.variant (r.2.take n) with
    | none => { code := .invalidSyndrome, cor := false, data := [], acc := acc }
    | some (data, cor) =>
      if crcCheck (data ++ r.2.drop n) (genSeq c) then
        { code := .ok, cor := cor, data := data, acc := List.replicate (frameW c) 0 }
      else { code := .crcMismatch, cor := cor, data := [], acc := r.1 }
  else { code := .malformedFrame, cor := false, data := [], acc := acc }

/-- R253, R256: what each result does: its counter, the buffer, and what is recorded. -/
def applyResult (r : RxResult) (s : State) : State :=
  match r.code with
  | .ok =>
    rxRecord .ok r.cor r.data .validatedAck
      (cbClear { s with rxCnt := { s.rxCnt with valid := s.rxCnt.valid + 1 } })
  | .malformedFrame =>
    rxRaise .malformedFrame r.cor { s with rxCnt := { s.rxCnt with malformed := s.rxCnt.malformed + 1 } }
  | .invalidSyndrome =>
    rxRaise .invalidSyndrome r.cor { s with rxCnt := { s.rxCnt with synfail := s.rxCnt.synfail + 1 } }
  | _ =>
    rxRaise .crcMismatch r.cor
      (cbCommit r.acc { s with rxCnt := { s.rxCnt with crcfail := s.rxCnt.crcfail + 1 } })

/-- R253: the effect of `RX_DECODE`. -/
def decodeFrame (s : State) : State :=
  applyResult (rxProcess s.cfg (s.rx.frm.take s.rx.len.toNat) s.cb.acc) s

/-- R253: `RX_DECODE`. -/
def execRxDecode (s : State) : Result := .next (if rxDecodeReady s then decodeFrame s else s)

/-- R254: `RX_RESPOND`. -/
def execRxRespond (s : State) : Result :=
  .next (if rxRespondReady s then rxEmitControl (decide (s.rx.state = .validatedAck)) s else s)

end Sys2Proof.Machine
end

