-- ==== Sys2Proof/Machine/System.lean ====
section
/-! DEFINITION. The system commands (47_system.md) and hardware reset (70_reset_and_hazards.md, R340). -/

namespace Sys2Proof.Machine

/-- R281: `NOP`. -/
def execNop (_aux : BitVec 8) (p : Bits) (s : State) : Result :=
  runCommand [(p.isEmpty, .lenErr)] (respond .ok false [] s) s

/-- R282: `RESET`. -/
def execReset (_aux : BitVec 8) (p : Bits) (s : State) : Result :=
  runCommand [(p.isEmpty, .lenErr)] (respond .ok false [] (resetCore s)) s

/-- R283: the length rule of a `CFG_WR` payload. -/
def cfgWrLenOk (r : Reg) (p : Bits) : Bool := decide (1 ≤ p.length) && decide (p.length ≤ regWidth r)

/-- R283: `CFG_WR`. -/
def execCfgWr (aux : BitVec 8) (p : Bits) (s : State) : Result :=
  match regOf aux with
  | none => runCommand [(quiescent s, .busy), (false, .badIdx)] s s
  | some r =>
    runCommand [(quiescent s, .busy), (regWritable r, .readOnly), (cfgWrLenOk r p, .lenErr)]
      (respond .ok false [] (cbClear { s with cfg := writeCfg r (bitsVal p) s.cfg })) s

/-- R284: `CFG_RD`. -/
def execCfgRd (aux : BitVec 8) (p : Bits) (s : State) : Result :=
  match regOf aux with
  | none => runCommand [(false, .badIdx)] s s
  | some r => runCommand [(p.isEmpty, .lenErr)] (respond .ok false (wordBits (regWidth r) (readReg s r)) s) s

/-- R285: what a successful `SESSION_START` writes, before its response. -/
def startSession (s : State) : State :=
  let c := cbClear s
  { c with
    run := true
    cfgErr := false
    tx := { s.tx with seq := 0, attempts := 0, outstanding := false, seqOvf := false }
    rx := { s.rx with lastErr := .ok }
    cb := { c.cb with seq := 0 }
    txCnt := TxCounters.zero
    rxCnt := RxCounters.zero }

/-- R285: `SESSION_START`; `cfg_ok` is its own outcome, and the one refusal that changes state (R93). -/
def execSessionStart (_aux : BitVec 8) (p : Bits) (s : State) : Result :=
  runCommand [(quiescent s, .busy), (p.isEmpty, .lenErr)]
    (if cfgOk s.cfg then respond .ok false [] (startSession s)
      else refuse .configViolation { s with cfgErr := true }) s

/-- R286: `SESSION_END`. -/
def execSessionEnd (_aux : BitVec 8) (p : Bits) (s : State) : Result :=
  runCommand [(decide (s.tx.state = .idle), .busy), (p.isEmpty, .lenErr)]
    (respond .ok false [] { s with run := false }) s

/-- R340: `RST`. What the host is presenting on `CMD` is discarded without a response (log 14).
DESIGN CHOICE (log 24): nothing of it is remembered, so the first bits presented after the `RST` are the header of a new
command, also where the host meant them as the rest of the discarded one. -/
def execRst (s : State) : Result :=
  let c := resetCore s
  .next { c with env := { c.env with cmdIn := [] } }

end Sys2Proof.Machine
end

