-- ==== Sys2Proof/Machine/Dispatch.lean ====
section
/-! DEFINITION. One arm per operation of R100. -/

namespace Sys2Proof.Machine

def exec (i : Instr) (s : State) : Host.Outcome State Fault Refusal :=
  match i with
  | .nop aux payload => Sys2Proof.Machine.execNop aux payload s
  | .reset aux payload => Sys2Proof.Machine.execReset aux payload s
  | .cfgWr aux payload => Sys2Proof.Machine.execCfgWr aux payload s
  | .cfgRd aux payload => Sys2Proof.Machine.execCfgRd aux payload s
  | .sessionStart aux payload => Sys2Proof.Machine.execSessionStart aux payload s
  | .sessionEnd aux payload => Sys2Proof.Machine.execSessionEnd aux payload s
  | .crcRem aux payload => Sys2Proof.Machine.execCrcRem aux payload s
  | .crcAppend aux payload => Sys2Proof.Machine.execCrcAppend aux payload s
  | .crcCheck aux payload => Sys2Proof.Machine.execCrcCheck aux payload s
  | .hamEnc aux payload => Sys2Proof.Machine.execHamEnc aux payload s
  | .hamDec aux payload => Sys2Proof.Machine.execHamDec aux payload s
  | .ilv aux payload => Sys2Proof.Machine.execIlv aux payload s
  | .dilv aux payload => Sys2Proof.Machine.execDilv aux payload s
  | .cbCombine aux payload => Sys2Proof.Machine.execCbCombine aux payload s
  | .cbClear aux payload => Sys2Proof.Machine.execCbClear aux payload s
  | .cbRead aux payload => Sys2Proof.Machine.execCbRead aux payload s
  | .pktPush aux payload => Sys2Proof.Machine.execPktPush aux payload s
  | .frmIn seq flen bits => Sys2Proof.Machine.execFrmIn seq flen bits s
  | .frmLost => Sys2Proof.Machine.execFrmLost s
  | .ctlAck seq => Sys2Proof.Machine.execCtlAck seq s
  | .ctlNack seq => Sys2Proof.Machine.execCtlNack seq s
  | .tick => Sys2Proof.Machine.execTick s
  | .rst => Sys2Proof.Machine.execRst s
  | .txSend => Sys2Proof.Machine.execTxSend s
  | .txAdvance => Sys2Proof.Machine.execTxAdvance s
  | .rxDecode => Sys2Proof.Machine.execRxDecode s
  | .rxRespond => Sys2Proof.Machine.execRxRespond s

end Sys2Proof.Machine
end

