-- ==== Sys2Proof/Machine/Fetch.lean ====
section
/-! DEFINITION. Which operation is next: the turn of an agent (R13), and the transaction it presents at a port, read
through the decoder. A transaction whose port does not accept waits where it is (R63, R73, U13). -/

namespace Sys2Proof.Machine

/-- What a turn comes to. -/
inductive Fetched where
  /-- The operation `i` is taken in `s`, the state with its transaction removed from the port. -/
  | run (i : Instr) (s : State)
  /-- R101: an illegal opcode, whose header and payload are consumed. -/
  | illegal (s : State)
  /-- No operation of the core: a move of the environment, or a turn with nothing to take. -/
  | quiet (s : State)
deriving DecidableEq, Repr

/-- The state with other turns to come. -/
def withTurns (ts : List Turn) (s : State) : State := { s with env := { s.env with turns := ts } }

/-- The state with other bits presented on `CMD`. -/
def withCmdIn (bs : Bits) (s : State) : State := { s with env := { s.env with cmdIn := bs } }

/-- The state with another channel queue. -/
def withChan (fs : List Frame) (s : State) : State := { s with env := { s.env with chan := fs } }

/-- The state with another control-path queue, its head not yet at the port. -/
def withCtlPath (ws : List (BitVec 17)) (s : State) : State :=
  { s with env := { s.env with ctlPath := ws, ctlReady := false } }

/-- R186, R187: the bits of a frame on `FRM_IN`: the head intact, the tail corrupted by `mask`. -/
def frameWire (f : Frame) (mask : Bits) : Bits := wordBits 24 f.head.toNat ++ xorFront f.bits mask

/-- A port event: taken in `taken` when its port accepts, else it stays where it is. -/
def fetchPort (p : Port) (wire : Bits) (taken s : State) : Fetched :=
  match decode p wire with
  | .ok (i, _) => if ready i s then .run i taken else .quiet s
  | .error _ => .quiet s

/-- R287: the command on `CMD` is always accepted, once its header and payload are there. -/
def fetchCmd (s : State) : Fetched :=
  match decode .cmd s.env.cmdIn with
  | .ok (i, rest) => .run i (withCmdIn rest s)
  | .error (.badOp _ rest) => .illegal (withCmdIn rest s)
  | .error _ => .quiet s

/-- The sender's internal step whose guard holds. -/
def senderStep (s : State) : Option Instr :=
  if txSendReady s then some .txSend else if txAdvanceReady s then some .txAdvance else none

/-- The receiver's internal step whose guard holds. -/
def receiverStep (s : State) : Option Instr :=
  if rxDecodeReady s then some .rxDecode else if rxRespondReady s then some .rxRespond else none

/-- An internal step happens when its guard holds (R90). -/
def fetchInternal (i : Option Instr) (s : State) : Fetched :=
  match i with
  | some i => .run i s
  | none => .quiet s

/-- One turn. DESIGN CHOICE (log 23): a frame is discarded with no operation of the core (R252) in every state, also while
`FRM_IN` does not accept; R185 ties what the channel does to that port, and R359 has the environment drain it then. -/
def fetchTurn (t : Turn) (s : State) : Fetched :=
  match t with
  | .present bits => .quiet (withCmdIn (s.env.cmdIn ++ bits) s)
  | .host => fetchCmd s
  | .channelDeliver mask =>
    match s.env.chan with
    | [] => .quiet s
    | f :: fs => fetchPort .frmIn (frameWire f mask) (withChan fs s) s
  | .channelLose =>
    match s.env.chan with
    | [] => .quiet s
    | _ :: fs => fetchPort .frmLost [true] (withChan fs s) s
  | .channelDiscard => .quiet (withChan s.env.chan.tail s)
  | .peerFrame f => .quiet (withChan (s.env.chan ++ [f]) s)
  | .controlPresent => .quiet { s with env := { s.env with ctlReady := !s.env.ctlPath.isEmpty } }
  | .controlDeliver =>
    match s.env.ctlPath with
    | [] => .quiet s
    | w :: ws => fetchPort .ctlIn (wordBits 17 w.toNat) (withCtlPath ws s) s
  | .controlLose => .quiet (withCtlPath s.env.ctlPath.tail s)
  | .peerControl w => .quiet { s with env := { s.env with ctlPath := s.env.ctlPath ++ [w] } }
  | .clock => fetchPort .tick [true] s s
  | .platform => fetchPort .rst [true] s s
  | .sender => fetchInternal (senderStep s) s
  | .receiver => fetchInternal (receiverStep s) s

/-- A control word stands at `CTL_IN` and the port accepts it. -/
def controlPending (s : State) : Bool := s.env.ctlReady && !s.env.ctlPath.isEmpty && ctlReadyToTake s

/-- R308 (a): a pending control word is taken before a `TICK` that would expire the deadline. -/
def controlFirst (s : State) : Bool := controlPending s && tickExpires s

/-- A whole command stands on `CMD`. -/
def commandPending (s : State) : Bool :=
  match fetchCmd s with
  | .quiet _ => false
  | _ => true

/-- The turn taken when none is listed (log 3), so that a run without further turns is fair in the sense of R371: an
enabled internal step, then a control word at its port, then a command presented, and else the clock (R193). -/
def idleTurn (s : State) : Turn :=
  if (senderStep s).isSome then .sender
  else if (receiverStep s).isSome then .receiver
  else if controlPending s then .controlDeliver
  else if commandPending s then .host
  else .clock

/-- What the next step does: the listed turn, or the default one; a `TICK` that R308 (a) makes wait keeps its turn. -/
def fetch (s : State) : Fetched :=
  match s.env.turns with
  | [] => fetchTurn (idleTurn s) s
  | t :: ts => if t = .clock ∧ controlFirst s then fetchTurn .controlDeliver s else fetchTurn t (withTurns ts s)

/-- Carrying out what was fetched, with the meaning of the operations given. -/
def runFetched (meaning : Instr → State → Result) : Fetched → Result
  | .run i s => meaning i s
  | .illegal s => .next (answerBadOp s)
  | .quiet s => .next s

/-- The wire bits of a port placed where the next step fetches them, with the turn that takes them (log 8). DESIGN CHOICE
(log 22): a lost frame is a made-up frame at the head of the channel, whose loss the turn reports. It is gone after that
step where the port accepts, which both users of this definition see to (`withPortAccepting`, `placeLine`). -/
def placeWire (p : Port) (wire : Bits) (s : State) : State :=
  match p with
  | .cmd => withTurns (.host :: s.env.turns) (withCmdIn (wire ++ s.env.cmdIn) s)
  | .frmIn =>
    withTurns (.channelDeliver [] :: s.env.turns)
      (withChan ({ head := BitVec.ofNat 24 (bitsVal (wire.take 24)), bits := wire.drop 24 } :: s.env.chan) s)
  | .frmLost => withTurns (.channelLose :: s.env.turns) (withChan ({ head := 0, bits := [] } :: s.env.chan) s)
  | .ctlIn =>
    withTurns (.controlDeliver :: s.env.turns)
      { s with env := { s.env with ctlPath := BitVec.ofNat 17 (bitsVal wire) :: s.env.ctlPath } }
  | .tick => withTurns (.clock :: s.env.turns) s
  | .rst => withTurns (.platform :: s.env.turns) s

/-- A state whose port accepts (R63, R73): what a transaction there needs to be taken next. For a frame a session and a
waiting receiver, for a control word a transmission outstanding in a session, for a tick no control word that R308 (a)
puts first (log 8). -/
def withPortAccepting (p : Port) (s : State) : State :=
  match p with
  | .frmIn | .frmLost => { s with run := true, rx := { s.rx with state := .waitingFrame } }
  | .ctlIn => { s with run := true, tx := { s.tx with state := .awaitingAck, outstanding := true } }
  | .tick => { s with env := { s.env with ctlReady := false } }
  | .cmd | .rst => s

/-- A word of the opcode table placed where the next step fetches and takes it; a word that is none changes nothing. -/
def placeTableWord (nbits w : Nat) (s : State) : State :=
  match tableWire nbits w with
  | some (p, wire) => placeWire p wire (withPortAccepting p s)
  | none => s

end Sys2Proof.Machine
end

