-- ==== Sys2Proof/Machine/Step.lean ====
section
/-! DEFINITION. The step of the machine (R13): one turn, one operation. -/

namespace Sys2Proof.Machine

/-- One step: the turn that is next, its transaction through the decoder, and the meaning of the operation. -/
def step (s : State) : Host.Outcome State Fault Refusal := runFetched exec (fetch s)

/-- `s` with a word of the opcode table where the next step fetches it, so that this step takes it (log 7, log 8). -/
def State.withFetchWord (s : State) (nbits w : Nat) : State := placeTableWord nbits w s

end Sys2Proof.Machine
end

