-- ==== Sys2Proof/Machine/Assembler.lean ====
section
/-! DEFINITION. The assembler of rules R105 and R106: a line of text as an operation or pseudo-operation, and what
running the line does on the link around the core. -/

namespace Sys2Proof.Machine

/-! ## Lines as data -/

/-- R106 (h): the index of a register written by name. -/
def regIndex : Reg → BitVec 8
  | .gen => 0x00
  | .variant => 0x01
  | .timeout => 0x02
  | .maxAtt => 0x03
  | .combRule => 0x04
  | .status => 0x10
  | .txSeq => 0x11
  | .attempts => 0x12
  | .deadline => 0x13
  | .time => 0x14
  | .cbSeq => 0x15
  | .cbCnt => 0x16
  | .cntFrames => 0x20
  | .cntLost => 0x21
  | .cntRetx => 0x22
  | .cntAcked => 0x23
  | .cntExhausted => 0x24
  | .cntRxframes => 0x25
  | .cntValid => 0x26
  | .cntCrcfail => 0x27
  | .cntSynfail => 0x28
  | .cntMalformed => 0x29
  | .cntCorrected => 0x2A
  | .cntStale => 0x2B
  | .cntTimeout => 0x2C

/-- A line: an operation of R100, or a pseudo-operation of R106. -/
inductive AsmLine where
  | op (i : Instr)
  | ticks (n : Nat)
  | settle
  | pass
  | passFlip (positions : List Nat)
  | drop
  | cpass
  | cdrop
deriving DecidableEq, Repr

/-! ## Reading a line (R105) -/

/-- R105: a comment starts with `;`. -/
def beforeComment (t : List Char) : List Char := t.takeWhile fun ch => ch ≠ ';'

/-- R105: outputs are written after `->`; they say what a port shows and are no operation. -/
def beforeOutputs : List Char → List Char
  | [] => []
  | ch :: rest => if ch = '-' ∧ rest.head? = some '>' then [] else ch :: beforeOutputs rest

/-- The text without the blanks around it. -/
def trimmed (t : List Char) : List Char :=
  ((t.dropWhile fun ch => ch = ' ').reverse.dropWhile fun ch => ch = ' ').reverse

/-- The parts of a text between its commas, without the blanks around them. -/
def commaParts (t : List Char) : List (List Char) := (t.splitOn ',').map trimmed

/-- R105: `0` and `1`, element 0 leftmost; `_` is ignored; any other character is no bit. -/
def bitsOfText : List Char → Option Bits
  | [] => some []
  | ch :: rest =>
    match bitsOfText rest with
    | none => none
    | some bs =>
      if ch = '0' then some (false :: bs)
      else if ch = '1' then some (true :: bs)
      else if ch = '_' then some bs
      else none

/-- R105: the `bits` of a line; the empty sequence is written `[]` only. -/
def bitsArg (t : List Char) : Option Bits :=
  if t = ['[', ']'] then some []
  else match bitsOfText t with
    | some [] => none
    | r => r

/-- The value of a digit, in hex. -/
def digitValue (ch : Char) : Option Nat :=
  let n := ch.toNat
  if 48 ≤ n ∧ n ≤ 57 then some (n - 48)
  else if 65 ≤ n ∧ n ≤ 70 then some (n - 55)
  else if 97 ≤ n ∧ n ≤ 102 then some (n - 87)
  else none

/-- The digits of a number in the given base, after the part `acc` already read. -/
def digitsValue (base : Nat) : List Char → Nat → Option Nat
  | [], acc => some acc
  | ch :: rest, acc =>
    match digitValue ch with
    | some d => if d < base then digitsValue base rest (acc * base + d) else none
    | none => none

/-- R105: a number, decimal, or hex with `0x`. -/
def numberArg (t : List Char) : Option Nat :=
  match t with
  | [] => none
  | ['0', 'x'] => none
  | '0' :: 'x' :: digits => digitsValue 16 digits 0
  | digits => digitsValue 10 digits 0

/-- A number that fits `w` bits. -/
def fieldArg (w : Nat) (t : List Char) : Option (BitVec w) :=
  match numberArg t with
  | some n => if n < 2 ^ w then some (BitVec.ofNat w n) else none
  | none => none

/-- R61: the registers by name. -/
def regNames : List (List Char × Reg) :=
    [("GEN".toList, .gen), ("VARIANT".toList, .variant), ("TIMEOUT".toList, .timeout)] ++
    [("MAX_ATT".toList, .maxAtt), ("COMB_RULE".toList, .combRule), ("STATUS".toList, .status)] ++
    [("TX_SEQ".toList, .txSeq), ("ATTEMPTS".toList, .attempts), ("DEADLINE".toList, .deadline)] ++
    [("TIME".toList, .time), ("CB_SEQ".toList, .cbSeq), ("CB_CNT".toList, .cbCnt)] ++
    [("CNT_FRAMES".toList, .cntFrames), ("CNT_LOST".toList, .cntLost), ("CNT_RETX".toList, .cntRetx)] ++
    [("CNT_ACKED".toList, .cntAcked), ("CNT_EXHAUSTED".toList, .cntExhausted), ("CNT_RXFRAMES".toList, .cntRxframes)] ++
    [("CNT_VALID".toList, .cntValid), ("CNT_CRCFAIL".toList, .cntCrcfail), ("CNT_SYNFAIL".toList, .cntSynfail)] ++
    [("CNT_MALFORMED".toList, .cntMalformed), ("CNT_CORRECTED".toList, .cntCorrected)] ++
    [("CNT_STALE".toList, .cntStale), ("CNT_TIMEOUT".toList, .cntTimeout)]

/-- R105: the `aux` of a line: a register's name (R106 (h)) or a number; 0 when it is left out (R102 (a); log 21). -/
def auxArg (t : List Char) : Option (BitVec 8) :=
  if t = [] then some 0
  else match regNames.find? (fun r => r.1 == t) with
    | some r => some (regIndex r.2)
    | none => fieldArg 8 t

/-- R100: the opcodes of the host commands by mnemonic. -/
def commandNames : List (List Char × BitVec 8) :=
    [("NOP".toList, 0x00), ("RESET".toList, 0x01), ("CFG_WR".toList, 0x02)] ++
    [("CFG_RD".toList, 0x03), ("SESSION_START".toList, 0x04), ("SESSION_END".toList, 0x05)] ++
    [("CRC_REM".toList, 0x10), ("CRC_APPEND".toList, 0x11), ("CRC_CHECK".toList, 0x12)] ++
    [("HAM_ENC".toList, 0x20), ("HAM_DEC".toList, 0x21), ("ILV".toList, 0x30)] ++
    [("DILV".toList, 0x31), ("CB_COMBINE".toList, 0x40), ("CB_CLEAR".toList, 0x41)] ++
    [("CB_READ".toList, 0x42), ("PKT_PUSH".toList, 0x50)]

/-- R105: the lines that are a word alone: strobes, internal steps (R99, R100) and pseudo-operations (R106). -/
def bareLines : List (List Char × AsmLine) :=
    [("FRM_LOST".toList, .op .frmLost), ("TICK".toList, .op .tick), ("RST".toList, .op .rst)] ++
    [("TX_SEND".toList, .op .txSend), ("TX_ADVANCE".toList, .op .txAdvance)] ++
    [("RX_DECODE".toList, .op .rxDecode), ("RX_RESPOND".toList, .op .rxRespond)] ++
    [("SETTLE".toList, .settle), ("PASS".toList, .pass), ("DROP".toList, .drop)] ++
    [("CPASS".toList, .cpass), ("CDROP".toList, .cdrop)]

/-- R105: a host command, `MNEMONIC [aux][, bits]`, with `len` the number of bits written. DESIGN CHOICE (log 21): with
more than 65535 bits, for which R91 has no `len`, it is no line of the syntax. -/
def commandLine (op : BitVec 8) (args : List (List Char)) : Option AsmLine :=
  match args with
  | [a] => do (commandOf op (← auxArg a) []).map .op
  | [a, b] => do
    let aux ← auxArg a
    let bits ← bitsArg b
    if bits.length < 65536 then (commandOf op aux bits).map .op else none
  | _ => none

/-- R105: `FRM_IN seq, bits`; `flen` is the number of bits written (R96). DESIGN CHOICE (log 21): with more than 255 bits
it is no line of the syntax. -/
def frameLine (args : List (List Char)) : Option AsmLine :=
  match args with
  | [a, b] => do
    let seq ← fieldArg 16 a
    let bits ← bitsArg b
    if bits.length < 256 then some (.op (.frmIn seq (BitVec.ofNat 8 bits.length) bits)) else none
  | _ => none

/-- A line with one number. -/
def numberLine (w : Nat) (make : BitVec w → AsmLine) (args : List (List Char)) : Option AsmLine :=
  match args with
  | [a] => (fieldArg w a).map make
  | _ => none

/-- R105, R106: the line a mnemonic and its arguments stand for. -/
def lineOf (name : List Char) (args : List (List Char)) : Option AsmLine :=
  match commandNames.find? (fun r => r.1 == name), bareLines.find? (fun r => r.1 == name) with
  | some r, _ => commandLine r.2 args
  | none, some r => if args = [[]] then some r.2 else none
  | none, none =>
    if name = "FRM_IN".toList then frameLine args
    else if name = "CTL_ACK".toList then numberLine 16 (fun seq => .op (.ctlAck seq)) args
    else if name = "CTL_NACK".toList then numberLine 16 (fun seq => .op (.ctlNack seq)) args
    else if name = "TICKS".toList then
      match args with
      | [a] => (numberArg a).map .ticks
      | _ => none
    else if name = "PASS_FLIP".toList then (args.mapM numberArg).map .passFlip
    else none

/-- R105: a line of text: `some none` where it holds no operation, `none` where it is none of the syntax. -/
def parseLine (text : List Char) : Option (Option AsmLine) :=
  let t := trimmed (beforeOutputs (beforeComment text))
  if t = [] then some none
  else
    let isName : Char → Bool := fun ch => ch ≠ ' ' ∧ ch ≠ ','
    (lineOf (t.takeWhile isName) (commaParts (t.dropWhile isName))).map some

/-- The lines of a program, those without an operation left out. -/
def parseProgram (texts : List (List Char)) : Option (List AsmLine) :=
  (texts.mapM parseLine).map fun ls => ls.filterMap id

/-! ## Running a line (R106) -/

/-- R106 (d): the mask that inverts the bits at the given 1-indexed positions. DESIGN CHOICE (log 22): position 0 and a
position past the frame's length, of which the rule says nothing, invert no bit, and a position written twice counts
once. -/
def flipMask (positions : List Nat) : Bits := (List.range 255).map fun i => positions.contains (i + 1)

/-- The turns of a line that presents nothing of its own: internal steps, whose guard `placeLine` has seen to hold, and
pseudo-operations (R106). For `SETTLE`: at
most one internal step of the sender and two of the receiver are enabled in a row, and their order does not matter. -/
def lineTurns (l : AsmLine) : List Turn :=
  match l with
  | .op .txSend | .op .txAdvance => [.sender]
  | .op .rxDecode | .op .rxRespond => [.receiver]
  | .op _ => []
  | .ticks n => List.replicate n .clock
  | .settle => [.sender, .receiver, .receiver]
  | .pass => [.channelDeliver []]
  | .passFlip ps => [.channelDeliver (flipMask ps)]
  | .drop => [.channelLose]
  | .cpass => [.controlDeliver]
  | .cdrop => [.controlLose]

/-- A line placed as what the next steps take: a command, port event or strobe at its port, before what is queued there;
an internal step or pseudo-operation by its turns. DESIGN CHOICE (log 22): an internal step or `FRM_LOST` whose guard does
not hold is a turn with nothing to take, so no other step of that controller runs and nothing stays in the channel; a
frame or control word waits at its port (U13). -/
def placeLine (l : AsmLine) (s : State) : State :=
  match l with
  | .op i =>
    match portOf i with
    | some .frmLost =>
      if ready i s then placeWire .frmLost (encode i) s else withTurns (.present [] :: s.env.turns) s
    | some p => placeWire p (encode i) s
    | none => withTurns ((if ready i s then lineTurns l else [.present []]) ++ s.env.turns) s
  | l => withTurns (lineTurns l ++ s.env.turns) s

/-- The steps a line takes. -/
def lineSteps (l : AsmLine) : Nat :=
  match l with
  | .op _ => 1
  | l => (lineTurns l).length

/-- `n` steps, where each goes on. -/
def stepsOf : Nat → State → Result
  | 0, s => .next s
  | n + 1, s =>
    match step s with
    | .next t => stepsOf n t
    | r => r

/-- A program, line after line, from a state without a control word standing at `CTL_IN` (log 13), as after reset: no
line brings one there, so every `TICK` of the program is taken at its line (log 22). -/
def runLines : List AsmLine → State → Result
  | [], s => .next s
  | l :: ls, s =>
    match stepsOf (lineSteps l) (placeLine l s) with
    | .next t => runLines ls t
    | r => r

end Sys2Proof.Machine
end

