-- ==== Sys2Proof/Safety.lean ====
section
/-! DEFINITION. The words claims are stated in: the invariants of R42, what reset leaves (R41), and the spec's own
formulas for words and values, written apart from the functions that compute them. -/

namespace Sys2Proof.Machine

/-! ## Invariants (R42) -/

/-- R42 (a). -/
abbrev OutstandingInv (s : State) : Prop := s.tx.outstanding = decide (s.tx.state = .awaitingAck)

/-- R42 (b). -/
abbrev AttemptsInv (s : State) : Prop :=
  s.tx.attempts ≤ s.cfg.maxAtt ∧
    (s.tx.state = .encoding ∨ s.tx.state = .awaitingAck ∨ s.tx.state = .retrying → s.tx.attempts < s.cfg.maxAtt) ∧
    (s.tx.state = .exhausted → s.tx.attempts = s.cfg.maxAtt) ∧
    (s.tx.state = .idle → s.tx.attempts = 0)

/-- R42 (c). -/
abbrev EmptyInv (s : State) : Prop := s.cb.empty = true → s.cb.cnt = 0 ∧ ∀ c ∈ s.cb.acc, c = 0

/-- R42 (d). -/
abbrev UnusedCellsInv (s : State) : Prop := ∀ i < Config.cbCells, frameW s.cfg ≤ i → s.cb.acc.getD i 0 = 0

/-- R42 (e). -/
abbrev OrCellsInv (s : State) : Prop := s.cfg.combRule = 0 → ∀ c ∈ s.cb.acc, c = 0 ∨ c = 1

/-- R42 (f). -/
abbrev RunInv (s : State) : Prop := s.run = false → s.tx.state = .idle

/-- R42 (g). -/
abbrev TxCodeInv (s : State) : Prop := txCode s.tx.state ≠ 6 ∧ txCode s.tx.state ≠ 7

/-- R42, all of it. -/
abbrev SpecInv (s : State) : Prop :=
  OutstandingInv s ∧ AttemptsInv s ∧ EmptyInv s ∧ UnusedCellsInv s ∧ OrCellsInv s ∧ RunInv s ∧ TxCodeInv s

/-- What a step needs besides R42 to keep it: the buffer has its 87 cells, none of them -128 (R36); a controller at work
has a legal configuration (R21, R280 (b)); a packet at work has `K` bits (R222). -/
abbrev ShapeInv (s : State) : Prop :=
  s.cb.acc.length = Config.cbCells ∧ (∀ c ∈ s.cb.acc, -127 ≤ c.toInt) ∧
    ((s.run = true ∨ s.rx.state ≠ .waitingFrame) → cfgOk s.cfg = true) ∧
    (s.tx.state ≠ .idle → s.tx.pay.length = dataK s.cfg.variant)

/-- The invariant every step keeps. -/
abbrev CoreInv (s : State) : Prop := SpecInv s ∧ ShapeInv s

/-! ## Reset (R41) -/

/-- R41: every row of the table but the latches it leaves unspecified (log 1). -/
abbrev AtReset (s : State) : Prop :=
  s.cfg.gen = 0x0000D ∧ s.cfg.variant = 0 ∧ s.cfg.timeout = 2 ∧ s.cfg.maxAtt = 4 ∧ s.cfg.combRule = 0 ∧
    s.run = false ∧ s.cfgErr = false ∧ s.tx.seqOvf = false ∧ s.tx.outstanding = false ∧ s.rx.lastErr = .ok ∧
    s.tx.state = .idle ∧ s.rx.state = .waitingFrame ∧ s.tx.seq = 0 ∧ s.tx.attempts = 0 ∧ s.tx.deadline = 0 ∧
    s.tx.time = 0 ∧ s.cb.seq = 0 ∧ s.cb.cnt = 0 ∧ s.cb.acc = List.replicate 87 0 ∧ s.cb.empty = true ∧
    s.txCnt = ⟨0, 0, 0, 0, 0, 0⟩ ∧ s.rxCnt = ⟨0, 0, 0, 0, 0, 0, 0⟩ ∧ statusWord s = 0

/-! ## Words, by the spec's formulas -/

/-- R91: "The header value is `op * 2^24 + aux * 2^16 + len`", then the payload. -/
def cmdWire (op : Nat) (aux : BitVec 8) (p : Bits) : Bits :=
  wordBits 32 (op * 2 ^ 24 + aux.toNat * 2 ^ 16 + p.length) ++ p

/-- R93: "The response value is `status * 2^28 + flag * 2^24 + rlen`", then the data; the state after that response and
nothing else. -/
def answered (s : State) (status flag : Nat) (data : Bits) : State :=
  { s with
    out :=
      { s.out with
        rsp :=
          s.out.rsp ++ [{ word := BitVec.ofNat 32 (status * 2 ^ 28 + flag * 2 ^ 24 + data.length), tail := data }] } }

/-- R97: the outcome word by its fields' places. -/
def txoValue (code retx seq : Nat) : BitVec 32 := BitVec.ofNat 32 (code * 2 ^ 28 + retx * 2 ^ 16 + seq)

/-- R98: the result word by its fields' places, and its tail. -/
def rxoValue (code cor seq : Nat) (data : Bits) : TailedWord :=
  { word := BitVec.ofNat 32 (code * 2 ^ 28 + cor * 2 ^ 24 + seq), tail := data }

/-- R95: "The value of an ACK for sequence number `s` is `0x10000 + s`; of a NACK, `s`". -/
def ctlValue (kind seq : Nat) : BitVec 17 := BitVec.ofNat 17 (kind * 0x10000 + seq)

/-- R94: "`value = sum over i of payload[i] * 2^(len-1-i)`". -/
def seqValue (p : Bits) : Nat :=
  ((List.range p.length).map fun i => if p.getD i false then 2 ^ (p.length - 1 - i) else 0).sum

/-- R9, R62: `w` bits of a value, most significant first. -/
def msbFirst (w v : Nat) : Bits := (List.range w).map fun i => decide (v / 2 ^ (w - 1 - i) % 2 = 1)

/-- R29: `STATUS` by its fields' places. -/
def statusValue (s : State) : Nat :=
  s.run.toNat + (txCode s.tx.state).toNat * 2 + (rxCode s.rx.state).toNat * 2 ^ 4 + s.tx.outstanding.toNat * 2 ^ 6 +
    (!s.cb.empty).toNat * 2 ^ 7 + s.cfgErr.toNat * 2 ^ 8 + s.tx.seqOvf.toNat * 2 ^ 9 +
    (condCode s.rx.lastErr).toNat * 2 ^ 12

/-- R61: index, width and value of every register. -/
def registerTable (s : State) : List (Nat × Nat × Nat) :=
  [(0x00, 17, s.cfg.gen.toNat), (0x01, 1, s.cfg.variant.toNat), (0x02, 32, s.cfg.timeout.toNat),
    (0x03, 8, s.cfg.maxAtt.toNat), (0x04, 2, s.cfg.combRule.toNat)] ++
  [(0x10, 32, statusValue s), (0x11, 16, s.tx.seq.toNat), (0x12, 8, s.tx.attempts.toNat),
    (0x13, 32, s.tx.deadline.toNat), (0x14, 32, s.tx.time.toNat), (0x15, 16, s.cb.seq.toNat),
    (0x16, 8, s.cb.cnt.toNat)] ++
  [(0x20, 32, s.txCnt.frames.toNat), (0x21, 32, s.rxCnt.lost.toNat), (0x22, 32, s.txCnt.retx.toNat),
    (0x23, 32, s.txCnt.acked.toNat), (0x24, 32, s.txCnt.exhausted.toNat), (0x25, 32, s.rxCnt.rxframes.toNat),
    (0x26, 32, s.rxCnt.valid.toNat), (0x27, 32, s.rxCnt.crcfail.toNat), (0x28, 32, s.rxCnt.synfail.toNat),
    (0x29, 32, s.rxCnt.malformed.toNat), (0x2A, 32, s.rxCnt.corrected.toNat), (0x2B, 32, s.txCnt.stale.toNat),
    (0x2C, 32, s.txCnt.timeout.toNat)]

/-- R61: the reserved indices. -/
def reservedIndex (idx : Nat) : Prop :=
  (0x05 ≤ idx ∧ idx ≤ 0x0F) ∨ (0x17 ≤ idx ∧ idx ≤ 0x1F) ∨ (0x2D ≤ idx ∧ idx ≤ 0xFF)

/-- R61: the widths of the five configuration registers, by index. -/
def cfgWidth (idx : Nat) : Nat := [17, 1, 32, 8, 2].getD idx 0

/-- R22: the configuration with the register of index 0 to 4 holding `v`. -/
def cfgHolding (idx v : Nat) (c : Cfg) : Cfg :=
  if idx = 0 then { c with gen := BitVec.ofNat 17 v }
  else if idx = 1 then { c with variant := BitVec.ofNat 1 v }
  else if idx = 2 then { c with timeout := BitVec.ofNat 32 v }
  else if idx = 3 then { c with maxAtt := BitVec.ofNat 8 v }
  else { c with combRule := BitVec.ofNat 2 v }

/-- R101: the illegal opcodes. -/
def illegalOpcode (op : Nat) : Prop :=
  (0x06 ≤ op ∧ op ≤ 0x0F) ∨ (0x13 ≤ op ∧ op ≤ 0x1F) ∨ (0x22 ≤ op ∧ op ≤ 0x2F) ∨ (0x32 ≤ op ∧ op ≤ 0x3F) ∨
    (0x43 ≤ op ∧ op ≤ 0x4F) ∨ (0x51 ≤ op ∧ op ≤ 0xFF)

/-- R201: the state with the buffer empty, `CB_SEQ` unchanged. -/
def withEmptyBuffer (s : State) : State :=
  { s with cb := { s.cb with acc := List.replicate 87 0, cnt := 0, empty := true } }

/-- R203: the state with cells `0 .. w-1` replaced by `acc'` and the reception counted. -/
def withCommitted (w : Nat) (acc' : List AccCell) (s : State) : State :=
  { s with
    cb :=
      { s.cb with
        acc := (List.range 87).map fun i => if i < w then acc'.getD i 0 else s.cb.acc.getD i 0
        cnt := BitVec.ofNat 8 (min (s.cb.cnt.toNat + 1) 255)
        empty := false } }

/-- R227: the state after a transmission has failed. -/
def withFailure (s : State) : State :=
  if s.tx.attempts + 1 < s.cfg.maxAtt then
    { s with tx := { s.tx with outstanding := false, attempts := s.tx.attempts + 1, state := .retrying } }
  else
    { s with
      tx := { s.tx with outstanding := false, attempts := s.tx.attempts + 1, state := .exhausted }
      txCnt := { s.txCnt with exhausted := s.txCnt.exhausted + 1 } }

/-- R220: the operations of the sender. -/
def senderOp : Instr → Bool
  | .pktPush _ _ | .txSend | .ctlAck _ | .ctlNack _ | .tick | .txAdvance => true
  | _ => false

/-- R250: the operations of the receiver. -/
def receiverOp : Instr → Bool
  | .frmIn _ _ _ | .frmLost | .rxDecode | .rxRespond => true
  | _ => false

/-! ## Bit sequences -/

/-- `a xor b` of two sequences (R7). -/
def xorBits (a b : Bits) : Bits := List.zipWith (fun x y => x ^^ y) a b

/-- The number of ones of a sequence. -/
def onesOf (a : Bits) : Nat := a.count true

/-- Errors at a list of 1-indexed positions. -/
def flipPositions (c : Bits) (ps : List Nat) : Bits := ps.foldl (fun e q => flipBit e (q - 1)) c

/-! ## The combining buffer over several receptions (R200) -/

/-- The cells after the receptions `ds` are combined one after the other, oldest first. -/
def cellsAfter (rule : BitVec 2) (w : Nat) (acc : List AccCell) (ds : List Bits) : List AccCell :=
  ds.foldl (fun a d => (combine rule w a d).1) acc

/-! ## Runs of single operations -/

/-- The next state of an operation; the state itself if there were none. -/
def after (i : Instr) (s : State) : State :=
  match exec i s with
  | .next t => t
  | _ => s

/-- `TICKS n` (R106 (a)). -/
def afterTicks : Nat → State → State
  | 0, s => s
  | n + 1, s => afterTicks n (after .tick s)

/-- `n` transmissions none of which is answered: each `TX_SEND`, then the `TIMEOUT` ticks to its deadline (R230 (d)). -/
def afterLostTransmissions : Nat → State → State
  | 0, s => s
  | n + 1, s => afterLostTransmissions n (afterTicks s.cfg.timeout.toNat (after .txSend s))

/-- The state after `n` steps from `s`, where the steps go on. -/
def RunsTo (n : Nat) (s t : State) : Prop := Host.Core.run Sys2Proof.core n s = .next t

/-- No step stops: the step answers a next state. -/
def StepGoesOn (s : State) : Prop := ∃ t, step s = .next t

end Sys2Proof.Machine
end

