-- ==== Sys2Proof/Certificates/Slice0/Obligations.lean ====
section
/-! DEFINITION. The statements for the provers. Each is named for what it states; OBLIGATIONS.json gives its rule. -/

open Sys2Proof Sys2Proof.Machine

/-! ## Reset and the system commands -/

/-- R41: reset, the command `RESET` and the strobe `RST` all leave the values of the table. -/
def Obligations.ResetLeavesTheTable : Prop :=
  AtReset State.reset ∧
    (∀ s, ∃ t, exec .rst s = .next t ∧ AtReset t) ∧
    (∀ aux s, ∃ t, exec (.reset aux []) s = .next t ∧ AtReset t)

/-- R281. -/
def Obligations.NopOnlyAnswers : Prop :=
  ∀ (aux : BitVec 8) (p : Bits) (s : State), p.length < 65536 →
    decode .cmd (cmdWire 0x00 aux p) = .ok (.nop aux p, []) ∧
    exec (.nop aux p) s = .next (if p.length = 0 then answered s 0 0 [] else answered s 10 0 [])

/-- R282: the reset values, then the response; the link around the core is untouched. -/
def Obligations.ResetCommandResets : Prop :=
  ∀ (aux : BitVec 8) (p : Bits) (s : State), p.length < 65536 →
    decode .cmd (cmdWire 0x01 aux p) = .ok (.reset aux p, []) ∧
    (p.length = 0 → ∃ t, exec (.reset aux p) s = .next (answered t 0 0 []) ∧ AtReset t ∧ t.env = s.env ∧ t.out = s.out) ∧
    (p.length ≠ 0 → exec (.reset aux p) s = .next (answered s 10 0 []))

/-- R340: no response; what is being presented on `CMD` is discarded, everything else around the core is untouched. -/
def Obligations.RstStrobeResets : Prop :=
  (∀ rest, decode .rst (true :: rest) = .ok (.rst, rest)) ∧
    ∀ s, ∃ t, exec .rst s = .next t ∧ AtReset t ∧ quiescent t = true ∧ t.out = s.out ∧
      t.env = { s.env with cmdIn := [] }

/-- R283: the checks in their order, the value written, the buffer cleared, nothing else. -/
def Obligations.CfgWrWritesOneRegister : Prop :=
  ∀ (aux : BitVec 8) (p : Bits) (s : State), p.length < 65536 →
    decode .cmd (cmdWire 0x02 aux p) = .ok (.cfgWr aux p, []) ∧
    (quiescent s = false → exec (.cfgWr aux p) s = .next (answered s 9 0 [])) ∧
    (quiescent s = true → reservedIndex aux.toNat → exec (.cfgWr aux p) s = .next (answered s 11 0 [])) ∧
    (quiescent s = true → ¬ reservedIndex aux.toNat → 0x10 ≤ aux.toNat →
      exec (.cfgWr aux p) s = .next (answered s 12 0 [])) ∧
    (quiescent s = true → aux.toNat ≤ 0x04 → (p.length = 0 ∨ cfgWidth aux.toNat < p.length) →
      exec (.cfgWr aux p) s = .next (answered s 10 0 [])) ∧
    (quiescent s = true → aux.toNat ≤ 0x04 → 1 ≤ p.length → p.length ≤ cfgWidth aux.toNat →
      exec (.cfgWr aux p) s =
        .next (answered (withEmptyBuffer { s with cfg := cfgHolding aux.toNat (seqValue p) s.cfg }) 0 0 []))

/-- R284, with the map of R61 written out. -/
def Obligations.CfgRdReadsOneRegister : Prop :=
  ∀ (aux : BitVec 8) (p : Bits) (s : State), p.length < 65536 →
    decode .cmd (cmdWire 0x03 aux p) = .ok (.cfgRd aux p, []) ∧
    exec (.cfgRd aux p) s =
      match (registerTable s).find? (fun r => r.1 == aux.toNat) with
      | none => .next (answered s 11 0 [])
      | some (_, w, v) => .next (if p.length = 0 then answered s 0 0 (msbFirst w v) else answered s 10 0 [])

/-- R29: the fields of `STATUS` at their places, and a write refused. -/
def Obligations.StatusAssemblesTheFlags : Prop :=
  ∀ (s : State), (statusWord s).toNat = statusValue s ∧ statusValue s < 2 ^ 16 ∧
    (∀ p, quiescent s = true → exec (.cfgWr 0x10 p) s = .next (answered s 12 0 []))

/-- R285: `cfg_ok` is the command's own outcome; on success the elements listed and nothing else. -/
def Obligations.SessionStartChecksAndClears : Prop :=
  ∀ (aux : BitVec 8) (p : Bits) (s : State), p.length < 65536 →
    decode .cmd (cmdWire 0x04 aux p) = .ok (.sessionStart aux p, []) ∧
    exec (.sessionStart aux p) s = .next (
      if quiescent s = false then answered s 9 0 []
      else if p.length ≠ 0 then answered s 10 0 []
      else if ¬ (2 ≤ s.cfg.gen.toNat ∧ s.cfg.gen.toNat % 2 = 1 ∧ 1 ≤ s.cfg.timeout.toNat ∧ 1 ≤ s.cfg.maxAtt.toNat ∧
          s.cfg.combRule.toNat ≤ 1) then answered { s with cfgErr := true } 6 0 []
      else answered
        { s with
          run := true, cfgErr := false
          tx := { s.tx with seq := 0, attempts := 0, outstanding := false, seqOvf := false }
          rx := { s.rx with lastErr := .ok }
          cb := { acc := List.replicate 87 0, empty := true, seq := 0, cnt := 0 }
          txCnt := ⟨0, 0, 0, 0, 0, 0⟩, rxCnt := ⟨0, 0, 0, 0, 0, 0, 0⟩ } 0 0 [])

/-- R286. -/
def Obligations.SessionEndClearsRun : Prop :=
  ∀ (aux : BitVec 8) (p : Bits) (s : State), p.length < 65536 →
    decode .cmd (cmdWire 0x05 aux p) = .ok (.sessionEnd aux p, []) ∧
    exec (.sessionEnd aux p) s = .next (
      if s.tx.state ≠ .idle then answered s 9 0 []
      else if p.length ≠ 0 then answered s 10 0 []
      else answered { s with run := false } 0 0 [])

/-! ## The codec commands -/

/-- R124, R125, R126. -/
def Obligations.CrcCommandsAnswer : Prop :=
  ∀ (aux : BitVec 8) (p : Bits) (s : State), p.length < 65536 →
    decode .cmd (cmdWire 0x10 aux p) = .ok (.crcRem aux p, []) ∧
    decode .cmd (cmdWire 0x11 aux p) = .ok (.crcAppend aux p, []) ∧
    decode .cmd (cmdWire 0x12 aux p) = .ok (.crcCheck aux p, []) ∧
    (quiescent s = false → ∀ i ∈ [Instr.crcRem aux p, .crcAppend aux p, .crcCheck aux p],
      exec i s = .next (answered s 9 0 [])) ∧
    (quiescent s = true → genOk s.cfg = false → ∀ i ∈ [Instr.crcRem aux p, .crcAppend aux p, .crcCheck aux p],
      exec i s = .next (answered s 6 0 [])) ∧
    (quiescent s = true → genOk s.cfg = true →
      exec (.crcRem aux p) s = .next (answered s 0 0 (crcRem p (genSeq s.cfg))) ∧
      exec (.crcAppend aux p) s = .next (answered s 0 0 (p ++ crcRem p (genSeq s.cfg))) ∧
      exec (.crcCheck aux p) s = .next (answered s 0 (crcCheck p (genSeq s.cfg)).toNat []))

/-- R147. -/
def Obligations.HamEncCommandAnswers : Prop :=
  ∀ (aux : BitVec 8) (p : Bits) (s : State), p.length < 65536 →
    decode .cmd (cmdWire 0x20 aux p) = .ok (.hamEnc aux p, []) ∧
    exec (.hamEnc aux p) s = .next (
      if quiescent s = false then answered s 9 0 []
      else if p.length ≠ dataK s.cfg.variant then answered s 10 0 []
      else answered s 0 0 (hamEnc s.cfg.variant p))

/-- R148. -/
def Obligations.HamDecCommandAnswers : Prop :=
  ∀ (aux : BitVec 8) (p : Bits) (s : State), p.length < 65536 →
    decode .cmd (cmdWire 0x21 aux p) = .ok (.hamDec aux p, []) ∧
    exec (.hamDec aux p) s = .next (
      if quiescent s = false then answered s 9 0 []
      else if p.length ≠ blockN s.cfg.variant then answered s 1 0 []
      else match hamDec s.cfg.variant p with
        | none => answered s 2 0 []
        | some (d, cor) => answered s 0 cor.toNat d)

/-- R173, R174. -/
def Obligations.InterleaverCommandsAnswer : Prop :=
  ∀ (aux : BitVec 8) (p : Bits) (s : State), p.length < 65536 →
    decode .cmd (cmdWire 0x30 aux p) = .ok (.ilv aux p, []) ∧
    decode .cmd (cmdWire 0x31 aux p) = .ok (.dilv aux p, []) ∧
    (quiescent s = false → ∀ i ∈ [Instr.ilv aux p, .dilv aux p], exec i s = .next (answered s 9 0 [])) ∧
    (quiescent s = true → (aux.toNat = 0 ∨ p.length % aux.toNat ≠ 0) → ∀ i ∈ [Instr.ilv aux p, .dilv aux p],
      exec i s = .next (answered s 10 0 [])) ∧
    (quiescent s = true → aux.toNat ≠ 0 → p.length % aux.toNat = 0 →
      exec (.ilv aux p) s = .next (answered s 0 0 (ilv p aux.toNat)) ∧
      exec (.dilv aux p) s = .next (answered s 0 0 (dilv p aux.toNat)))

/-- R204. -/
def Obligations.CbCombineCommits : Prop :=
  ∀ (aux : BitVec 8) (p : Bits) (s : State), p.length < 65536 →
    decode .cmd (cmdWire 0x40 aux p) = .ok (.cbCombine aux p, []) ∧
    exec (.cbCombine aux p) s = .next (
      if quiescent s = false then answered s 9 0 []
      else if genOk s.cfg = false ∨ 1 < s.cfg.combRule.toNat then answered s 6 0 []
      else if p.length ≠ frameW s.cfg then answered s 10 0 []
      else
        answered
          (withCommitted (frameW s.cfg) (combine s.cfg.combRule (frameW s.cfg) s.cb.acc p).1 s)
          0 0 (combine s.cfg.combRule (frameW s.cfg) s.cb.acc p).2)

/-- R205. -/
def Obligations.CbClearEmpties : Prop :=
  ∀ (aux : BitVec 8) (p : Bits) (s : State), p.length < 65536 →
    decode .cmd (cmdWire 0x41 aux p) = .ok (.cbClear aux p, []) ∧
    exec (.cbClear aux p) s = .next (
      if quiescent s = false then answered s 9 0 []
      else if p.length ≠ 0 then answered s 10 0 []
      else answered (withEmptyBuffer s) 0 0 [])

/-- R207. -/
def Obligations.CbReadReturnsTheCells : Prop :=
  ∀ (aux : BitVec 8) (p : Bits) (s : State), p.length < 65536 →
    decode .cmd (cmdWire 0x42 aux p) = .ok (.cbRead aux p, []) ∧
    exec (.cbRead aux p) s = .next (
      if quiescent s = false then answered s 9 0 []
      else if genOk s.cfg = false then answered s 6 0 []
      else if p.length ≠ 0 then answered s 10 0 []
      else
        answered s 0 0 ((List.range (frameW s.cfg)).flatMap fun i => msbFirst 8 ((s.cb.acc.getD i 0).toInt % 256).toNat))

/-! ## The sender -/

/-- R222. -/
def Obligations.PktPushLatchesThePacket : Prop :=
  ∀ (aux : BitVec 8) (p : Bits) (s : State), p.length < 65536 →
    decode .cmd (cmdWire 0x50 aux p) = .ok (.pktPush aux p, []) ∧
    exec (.pktPush aux p) s = .next (
      if s.run = false ∨ s.tx.state ≠ .idle then answered s 9 0 []
      else if s.tx.seqOvf = true then answered s 13 0 []
      else if p.length ≠ dataK s.cfg.variant then answered s 10 0 []
      else answered { s with tx := { s.tx with pay := p, attempts := 0, state := .encoding } } 0 0 [])

/-- R224, with the frame of R221. -/
def Obligations.TxSendEmitsTheFrame : Prop :=
  ∀ s : State, s.tx.state = .encoding ∨ s.tx.state = .retrying →
    let f : Frame :=
      { head := frmHead s.tx.seq (BitVec.ofNat 8 (frameW s.cfg))
        bits := hamEnc s.cfg.variant s.tx.pay ++ crcRem s.tx.pay (genSeq s.cfg) }
    exec .txSend s = .next
      { s with
        tx :=
          { s.tx with
            deadline := BitVec.ofNat 32 ((s.tx.time.toNat + s.cfg.timeout.toNat) % 2 ^ 32)
            outstanding := true
            state := .awaitingAck }
        txCnt :=
          { s.txCnt with
            frames := s.txCnt.frames + 1
            retx := s.txCnt.retx + if s.tx.state = .retrying then 1 else 0 }
        env := { s.env with chan := s.env.chan ++ [f] }
        out := { s.out with frmOut := s.out.frmOut ++ [f] } }

/-- R225: the word and its effect, on the right tag and on a stale one. -/
def Obligations.CtlAckAcknowledges : Prop :=
  ∀ (seq : SeqNum) (s : State),
    decode .ctlIn (wordBits 17 (0x10000 + seq.toNat)) = .ok (.ctlAck seq, []) ∧
    (s.tx.state = .awaitingAck →
      exec (.ctlAck seq) s = .next (
        if seq ≠ s.tx.seq then { s with txCnt := { s.txCnt with stale := s.txCnt.stale + 1 } }
        else
          { s with
            tx := { s.tx with outstanding := false, state := .acked }
            txCnt := { s.txCnt with acked := s.txCnt.acked + 1 } }))

/-- R228 and R227: the word and its effect, on the right tag and on a stale one. -/
def Obligations.CtlNackFailsTheTransmission : Prop :=
  ∀ (seq : SeqNum) (s : State),
    decode .ctlIn (wordBits 17 seq.toNat) = .ok (.ctlNack seq, []) ∧
    (s.tx.state = .awaitingAck →
      exec (.ctlNack seq) s = .next (
        if seq ≠ s.tx.seq then { s with txCnt := { s.txCnt with stale := s.txCnt.stale + 1 } }
        else withFailure s))

/-- R226: the time advances first, then the deadline is tested for equality. -/
def Obligations.TickAdvancesTimeAndExpires : Prop :=
  (∀ rest, decode .tick (true :: rest) = .ok (.tick, rest)) ∧
    ∀ s : State,
      let t : State := { s with tx := { s.tx with time := BitVec.ofNat 32 ((s.tx.time.toNat + 1) % 2 ^ 32) } }
      exec .tick s = .next (
        if s.tx.state = .awaitingAck ∧ t.tx.time = s.tx.deadline then
          withFailure { t with txCnt := { s.txCnt with timeout := s.txCnt.timeout + 1 } }
        else t)

/-- R229: the outcome word, the next sequence number, `SEQ_OVF` at the wrap. -/
def Obligations.TxAdvanceReportsTheOutcome : Prop :=
  ∀ s : State, s.tx.state = .acked ∨ s.tx.state = .exhausted →
    exec .txAdvance s = .next
      { s with
        tx :=
          { s.tx with
            seqOvf := if s.tx.seq.toNat = 65535 then true else s.tx.seqOvf
            seq := BitVec.ofNat 16 ((s.tx.seq.toNat + 1) % 2 ^ 16)
            attempts := 0
            state := .idle }
        out :=
          { s.out with
            txOut :=
              s.out.txOut ++
                [if s.tx.state = .acked then txoValue 0 s.tx.attempts.toNat s.tx.seq.toNat
                  else txoValue 5 (s.tx.attempts - 1).toNat s.tx.seq.toNat] } }

/-! ## The receiver -/

/-- R251: the latches, the buffer cleared on another tag, the state. -/
def Obligations.FrmInLatchesTheFrame : Prop :=
  ∀ (seq : SeqNum) (flen : BitVec 8) (bits : Bits) (s : State), bits.length = flen.toNat →
    decode .frmIn (wordBits 24 (seq.toNat * 2 ^ 8 + flen.toNat) ++ bits) = .ok (.frmIn seq flen bits, []) ∧
    (s.run = true → s.rx.state = .waitingFrame →
      exec (.frmIn seq flen bits) s = .next
        { s with
          rx := { s.rx with frm := bits, len := flen, seq := seq, state := .decoding }
          cb := if seq = s.cb.seq then s.cb else { acc := List.replicate 87 0, empty := true, seq := seq, cnt := 0 }
          rxCnt := { s.rxCnt with rxframes := s.rxCnt.rxframes + 1 } })

/-- R252: counted, `LAST_ERR = 4`, nothing sent, nothing else. -/
def Obligations.FrmLostIsOnlyCounted : Prop :=
  (∀ rest, decode .frmLost (true :: rest) = .ok (.frmLost, rest)) ∧ condCode .channelLoss = 4 ∧
    ∀ s : State, s.run = true → s.rx.state = .waitingFrame →
      exec .frmLost s = .next
        { s with
          rx := { s.rx with lastErr := .channelLoss }
          rxCnt := { s.rxCnt with lost := s.rxCnt.lost + 1 } }

/-- R253, R256: what each of the four results of `rx_process` does to the latches, the counters, the buffer, the output
and the state, and that there is no fifth. -/
def Obligations.RxDecodeAppliesTheResult : Prop :=
  ∀ s : State, s.rx.state = .decoding →
    let r := rxProcess s.cfg (s.rx.frm.take s.rx.len.toNat) s.cb.acc
    let recorded : Cond → RxState → TailedWord → State → State := fun code st w u =>
      { u with
        rx := { s.rx with res := code, cor := r.cor, lastErr := code, state := st }
        out := { s.out with rxOut := s.out.rxOut ++ [w] } }
    let corrected : Count := s.rxCnt.corrected + if r.cor then 1 else 0
    (r.code = .ok ∧
      exec .rxDecode s = .next (recorded .ok .validatedAck (rxoValue 0 r.cor.toNat s.rx.seq.toNat r.data)
        { withEmptyBuffer s with
          rxCnt := { s.rxCnt with valid := s.rxCnt.valid + 1, corrected := corrected } })) ∨
    (r.code = .malformedFrame ∧
      exec .rxDecode s = .next (recorded .malformedFrame .invalidatedNack (rxoValue 1 0 s.rx.seq.toNat [])
        { s with rxCnt := { s.rxCnt with malformed := s.rxCnt.malformed + 1, corrected := corrected } })) ∨
    (r.code = .invalidSyndrome ∧
      exec .rxDecode s = .next (recorded .invalidSyndrome .invalidatedNack (rxoValue 2 0 s.rx.seq.toNat [])
        { s with rxCnt := { s.rxCnt with synfail := s.rxCnt.synfail + 1, corrected := corrected } })) ∨
    (r.code = .crcMismatch ∧
      exec .rxDecode s = .next (recorded .crcMismatch .invalidatedNack (rxoValue 3 r.cor.toNat s.rx.seq.toNat [])
        { withCommitted (frameW s.cfg) r.acc s with
          rxCnt := { s.rxCnt with crcfail := s.rxCnt.crcfail + 1, corrected := corrected } }))

/-- R255, R308 (c): the length is tested first, then the syndrome of the combined word, then its CRC over the corrected
data; what each result returns. -/
def Obligations.RxProcessReportsTheFirstResult : Prop :=
  ∀ (c : Cfg) (f : Bits) (acc : List AccCell),
    let n := blockN c.variant
    let word := (combine c.combRule (frameW c) acc f).2
    let sy := syndrome c.variant (word.take n)
    let d := extractData c.variant (if sy = 0 then word.take n else flipBit (word.take n) (sy - 1))
    let valid : Prop := polymod (d ++ word.drop n) (genSeq c) = zeros (degR c)
    (f.length ≠ frameW c → rxProcess c f acc = { code := .malformedFrame, cor := false, data := [], acc := acc }) ∧
    (f.length = frameW c → n < sy →
      rxProcess c f acc = { code := .invalidSyndrome, cor := false, data := [], acc := acc }) ∧
    (f.length = frameW c → sy ≤ n → valid →
      rxProcess c f acc = { code := .ok, cor := decide (sy ≠ 0), data := d, acc := List.replicate (frameW c) 0 }) ∧
    (f.length = frameW c → sy ≤ n → ¬ valid →
      rxProcess c f acc =
        { code := .crcMismatch, cor := decide (sy ≠ 0), data := [], acc := (combine c.combRule (frameW c) acc f).1 })

/-- R254. -/
def Obligations.RxRespondAnswersTheFrame : Prop :=
  ∀ s : State, s.rx.state = .validatedAck ∨ s.rx.state = .invalidatedNack →
    let w := ctlValue (if s.rx.state = .validatedAck then 1 else 0) s.rx.seq.toNat
    exec .rxRespond s = .next
      { s with
        rx := { s.rx with state := .waitingFrame }
        env := { s.env with ctlPath := s.env.ctlPath ++ [w] }
        out := { s.out with ctlOut := s.out.ctlOut ++ [w] } }

/-- The model's reading of a guard that does not hold (log 4; R13: "the operation cannot occur"): nothing changes. -/
def Obligations.WithoutItsGuardAnOperationChangesNothing : Prop :=
  ∀ s : State,
    (s.tx.state ≠ .encoding → s.tx.state ≠ .retrying → exec .txSend s = .next s) ∧
    (s.tx.state ≠ .acked → s.tx.state ≠ .exhausted → exec .txAdvance s = .next s) ∧
    (s.tx.state ≠ .awaitingAck → ∀ seq, exec (.ctlAck seq) s = .next s ∧ exec (.ctlNack seq) s = .next s) ∧
    (s.rx.state ≠ .decoding → exec .rxDecode s = .next s) ∧
    (s.rx.state ≠ .validatedAck → s.rx.state ≠ .invalidatedNack → exec .rxRespond s = .next s) ∧
    (s.run = false ∨ s.rx.state ≠ .waitingFrame →
      exec .frmLost s = .next s ∧ ∀ seq flen bits, exec (.frmIn seq flen bits) s = .next s)

/-! ## The codec functions -/

/-- R8: `poly(s)`, the first bit the coefficient of the highest power. -/
noncomputable def bitPoly (s : Bits) : Polynomial (ZMod 2) :=
  ∑ i ∈ Finset.range s.length, if s.getD i false then Polynomial.X ^ (s.length - 1 - i) else 0

/-- R121: the result has `r` bits, is the remainder of `poly(s)` divided by `poly(g)`, and is the only such sequence; for
every `g` with no leading zero. -/
def Obligations.PolymodIsThePolynomialRemainder : Prop :=
  ∀ (s g : Bits),
    (polymod s (true :: g)).length = g.length ∧
    bitPoly (polymod s (true :: g)) = bitPoly s %ₘ bitPoly (true :: g) ∧
    ∀ t : Bits, t.length = g.length → bitPoly t = bitPoly s %ₘ bitPoly (true :: g) → t = polymod s (true :: g)

/-- R127: (a) round trip, (b) every single flipped bit is seen, (c) linearity, (d) an error pattern on a valid sequence
is missed exactly when it validates itself; for every legal `GEN`. Derived: the spec marks (c) as its inference from
R121, and the last clause says more than R127 (d) and rests on R121 too. -/
def Obligations.CrcDetectsEverySingleError : Prop :=
  ∀ c : Cfg, genOk c = true →
    (∀ p, crcCheck (crcAppend p (genSeq c)) (genSeq c) = true) ∧
    (∀ p i, i < p.length + degR c → crcCheck (flipBit (crcAppend p (genSeq c)) i) (genSeq c) = false) ∧
    (∀ a b, a.length = b.length →
      crcRem (xorBits a b) (genSeq c) = xorBits (crcRem a (genSeq c)) (crcRem b (genSeq c))) ∧
    (∀ a e, a.length = e.length → crcCheck a (genSeq c) = true →
      crcCheck (xorBits a e) (genSeq c) = crcCheck e (genSeq c))

/-- R141: the positions `D` are those that are no power of two, in rising order. R142: a block has `N` bits, holds the
data at `D`, and every `C_j` has even parity, which fixes each of its bits. -/
def Obligations.HamEncPlacesDataWithEvenParity : Prop :=
  ∀ (v : BitVec 1) (d : Bits), d.length = dataK v →
    (dataPositions v).Pairwise (fun p q => p < q) ∧
    (∀ q, q ∈ dataPositions v ↔ 1 ≤ q ∧ q ≤ blockN v ∧ ∀ j, q ≠ 2 ^ j) ∧
    (hamEnc v d).length = blockN v ∧ (dataPositions v).length = dataK v ∧ extractData v (hamEnc v d) = d ∧
    ∀ j < parityMP v, xorAll (((positions v).filter fun q => q.testBit j).map (bitAt (hamEnc v d))) = false

/-- R149: both variants decode what they encode, and correct every single error, the syndrome naming its position;
`ham_enc` is linear, and every non-zero block has at least three ones. Derived: the spec marks linearity as its inference
from R142, and the three ones as general knowledge; both follow from R142. -/
def Obligations.HammingCorrectsEverySingleError : Prop :=
  ∀ (v : BitVec 1) (d : Bits), d.length = dataK v →
    hamDec v (hamEnc v d) = some (d, false) ∧
    (∀ i < blockN v, syndrome v (flipBit (hamEnc v d) i) = i + 1 ∧
      hamDec v (flipBit (hamEnc v d) i) = some (d, true)) ∧
    (∀ b : Bits, b.length = dataK v → hamEnc v (xorBits d b) = xorBits (hamEnc v d) (hamEnc v b)) ∧
    (d ≠ zeros (dataK v) → 3 ≤ onesOf (hamEnc v d))

/-- R150, R146: errors on a block give the XOR of their positions as syndrome; `InvalidSyndrome` never with (7,4) and
exactly at 72 to 127 with (71,64). -/
def Obligations.SyndromeIsTheXorOfTheErrors : Prop :=
  (∀ (v : BitVec 1) (d : Bits) (ps : List Nat), d.length = dataK v → (∀ q ∈ ps, 1 ≤ q ∧ q ≤ blockN v) →
    syndrome v (flipPositions (hamEnc v d) ps) = ps.foldl (fun a q => a ^^^ q) 0) ∧
  (∀ c : Bits, hamDec 0 c ≠ none) ∧
  (∀ c : Bits, hamDec 1 c = none ↔ 72 ≤ syndrome 1 c ∧ syndrome 1 c ≤ 127)

/-- R171, R172: where each bit goes. -/
def Obligations.InterleaverMovesEachBit : Prop :=
  ∀ (m l : Nat) (x : Bits), 1 ≤ m → x.length = m * l →
    (ilv x m).length = m * l ∧ (dilv x m).length = m * l ∧
    ∀ i < l, ∀ c < m,
      (ilv x m).getD (i * m + c) false = x.getD (c * l + i) false ∧
      (dilv x m).getD (c * l + i) false = x.getD (i * m + c) false

/-- R175 (a) to (e). Derived: (a) is stated, (b) to (e) are marked in the spec as its inferences from R171 and R172. -/
def Obligations.InterleaverIsALosslessPermutation : Prop :=
  ∀ (m l : Nat) (x y : Bits), 1 ≤ m → x.length = m * l → y.length = m * l →
    dilv (ilv x m) m = x ∧ ilv (dilv x m) m = x ∧
    ilv (xorBits x y) m = xorBits (ilv x m) (ilv y m) ∧ onesOf (ilv x m) = onesOf x ∧ onesOf (dilv x m) = onesOf x ∧
    ilv x 1 = x ∧ dilv x 1 = x ∧ (1 ≤ l → ilv x (m * l) = x ∧ ilv x m = dilv x l)

/-- R202, R208: combined into an empty buffer a reception is the combined word; under OR a combined bit is 1 exactly when
some reception since the clear had it. -/
def Obligations.OrCombiningKeepsEveryOne : Prop :=
  (∀ (rule : BitVec 2) (d : Bits), rule = 0 ∨ rule = 1 →
    (combine rule d.length (List.replicate 87 0) d).2 = d) ∧
  ∀ (w : Nat) (ds : List Bits) (d : Bits), ∀ i < w,
    (combine 0 w (cellsAfter 0 w (List.replicate 87 0) ds) d).2.getD i false =
      (ds ++ [d]).any fun x => x.getD i false

/-- R202, R206, R365: under MAJ a cell counts ones minus zeros, the combined bit is the majority, and on a tie the newest
reception's bit; for up to 127 receptions. -/
def Obligations.MajCombiningTakesTheMajority : Prop :=
  ∀ (w : Nat) (ds : List Bits) (d : Bits), ds.length < 127 → ∀ i < w,
    let ones := (ds ++ [d]).countP fun x => x.getD i false
    let n := ds.length + 1
    (((cellsAfter 1 w (List.replicate 87 0) (ds ++ [d])).getD i 0).toInt = 2 * (ones : Int) - (n : Int)) ∧
    (combine 1 w (cellsAfter 1 w (List.replicate 87 0) ds) d).2.getD i false =
      if n < 2 * ones then true else if 2 * ones < n then false else d.getD i false

/-! ## Invariants and rules of the whole machine -/

/-- The invariant of `CoreInv` holds after reset. -/
def Obligations.InvHoldsAtReset : Prop := CoreInv State.reset

/-- R42 and the shape of the buffer and the packet: every step keeps them, from every state that has them. -/
def Obligations.EveryStepKeepsInv : Prop :=
  ∀ s t : State, CoreInv s → step s = .next t → CoreInv t

/-- R42: from reset, with anything presented at the ports, in flight and to come, every reached state has (a) to (g).
Derived: the spec marks R42 as its inference from the rules of the operations. -/
def Obligations.ReachableStatesKeepTheSpecInvariants : Prop :=
  ∀ (e : Env) (n : Nat) (t : State), RunsTo n { State.reset with env := e } t → SpecInv t

/-- R310: no condition stops the machine: every operation and every step answers a next state. -/
def Obligations.NoStepEverStops : Prop :=
  (∀ (i : Instr) (s : State), ∃ t, exec i s = .next t) ∧ ∀ s : State, StepGoesOn s

/-- R21, R280 (b): the configuration changes only by `CFG_WR` in a quiescent block, `RESET` and `RST`. -/
def Obligations.ConfigurationChangesOnlyWhenQuiescent : Prop :=
  ∀ (i : Instr) (s t : State), exec i s = .next t →
    t.cfg = s.cfg ∨ (∃ aux p, i = .cfgWr aux p ∧ quiescent s = true) ∨ (∃ aux p, i = .reset aux p) ∨ i = .rst

/-- R31: the codes, the reset value, and the only transitions of the sender. -/
def Obligations.SenderTakesOnlyItsTransitions : Prop :=
  (txCode .idle = 0 ∧ txCode .encoding = 1 ∧ txCode .awaitingAck = 2 ∧ txCode .acked = 3 ∧ txCode .retrying = 4 ∧
    txCode .exhausted = 5 ∧ State.reset.tx.state = .idle) ∧
  ∀ (i : Instr) (s t : State), exec i s = .next t → t.tx.state ≠ s.tx.state →
    (s.tx.state = .idle ∧ t.tx.state = .encoding ∧ ∃ aux p, i = .pktPush aux p) ∨
    ((s.tx.state = .encoding ∨ s.tx.state = .retrying) ∧ t.tx.state = .awaitingAck ∧ i = .txSend) ∨
    (s.tx.state = .awaitingAck ∧ t.tx.state = .acked ∧ i = .ctlAck s.tx.seq) ∨
    (s.tx.state = .awaitingAck ∧ (t.tx.state = .retrying ∨ t.tx.state = .exhausted) ∧
      (i = .ctlNack s.tx.seq ∨ (i = .tick ∧ s.tx.time + 1 = s.tx.deadline))) ∨
    ((s.tx.state = .acked ∨ s.tx.state = .exhausted) ∧ t.tx.state = .idle ∧ i = .txAdvance) ∨
    (t.tx.state = .idle ∧ (i = .rst ∨ ∃ aux p, i = .reset aux p))

/-- R32: the codes, the reset value, and the only transitions of the receiver. -/
def Obligations.ReceiverTakesOnlyItsTransitions : Prop :=
  (rxCode .waitingFrame = 0 ∧ rxCode .decoding = 1 ∧ rxCode .validatedAck = 2 ∧ rxCode .invalidatedNack = 3 ∧
    State.reset.rx.state = .waitingFrame) ∧
  ∀ (i : Instr) (s t : State), exec i s = .next t → t.rx.state ≠ s.rx.state →
    (s.rx.state = .waitingFrame ∧ t.rx.state = .decoding ∧ ∃ seq flen bits, i = .frmIn seq flen bits) ∨
    (s.rx.state = .decoding ∧ (t.rx.state = .validatedAck ∨ t.rx.state = .invalidatedNack) ∧ i = .rxDecode) ∨
    ((s.rx.state = .validatedAck ∨ s.rx.state = .invalidatedNack) ∧ t.rx.state = .waitingFrame ∧ i = .rxRespond) ∨
    (t.rx.state = .waitingFrame ∧ (i = .rst ∨ ∃ aux p, i = .reset aux p))

/-- R38: outside reset and the start of a session, each counter rises by one in exactly the operations listed. -/
def Obligations.CountersRiseOnlyAsListed : Prop :=
  ∀ (i : Instr) (s t : State), exec i s = .next t →
    (∀ aux p, i ≠ .reset aux p) → i ≠ .rst → (∀ aux p, i ≠ .sessionStart aux p) →
    let decoded : Cond → Prop := fun c => i = .rxDecode ∧ s.rx.state = .decoding ∧ t.rx.res = c
    let ctl : Prop := ∃ seq, (i = .ctlAck seq ∨ i = .ctlNack seq) ∧ s.tx.state = .awaitingAck ∧ seq ≠ s.tx.seq
    let sent : Prop := i = .txSend ∧ (s.tx.state = .encoding ∨ s.tx.state = .retrying)
    let rises : Prop → Count → Count → Prop := fun c before now =>
      (c → now = before + 1) ∧ (¬ c → now = before)
    rises sent s.txCnt.frames t.txCnt.frames ∧
    rises (i = .txSend ∧ s.tx.state = .retrying) s.txCnt.retx t.txCnt.retx ∧
    rises (i = .ctlAck s.tx.seq ∧ s.tx.state = .awaitingAck) s.txCnt.acked t.txCnt.acked ∧
    rises (s.tx.state ≠ .exhausted ∧ t.tx.state = .exhausted) s.txCnt.exhausted t.txCnt.exhausted ∧
    rises ctl s.txCnt.stale t.txCnt.stale ∧
    rises (i = .tick ∧ s.tx.state = .awaitingAck ∧ s.tx.time + 1 = s.tx.deadline) s.txCnt.timeout t.txCnt.timeout ∧
    rises (i = .frmLost ∧ s.run = true ∧ s.rx.state = .waitingFrame) s.rxCnt.lost t.rxCnt.lost ∧
    rises ((∃ seq flen bits, i = .frmIn seq flen bits) ∧ s.run = true ∧ s.rx.state = .waitingFrame)
      s.rxCnt.rxframes t.rxCnt.rxframes ∧
    rises (decoded .ok) s.rxCnt.valid t.rxCnt.valid ∧
    rises (decoded .crcMismatch) s.rxCnt.crcfail t.rxCnt.crcfail ∧
    rises (decoded .invalidSyndrome) s.rxCnt.synfail t.rxCnt.synfail ∧
    rises (decoded .malformedFrame) s.rxCnt.malformed t.rxCnt.malformed ∧
    rises (i = .rxDecode ∧ s.rx.state = .decoding ∧ t.rx.cor = true) s.rxCnt.corrected t.rxCnt.corrected

/-- R38: "No rule reads a counter; they never influence behaviour": with other counter values every operation but a read
does the same to everything else. -/
def Obligations.CountersNeverInfluenceBehaviour : Prop :=
  ∀ (i : Instr) (s : State) (a : TxCounters) (b : RxCounters), (∀ aux p, i ≠ .cfgRd aux p) →
    ∃ t a' b', exec i s = .next t ∧
      exec i { s with txCnt := a, rxCnt := b } = .next { t with txCnt := a', rxCnt := b' }

/-- R68 (d): the sender's operations neither write nor read the receiver's state, nor the receiver's the sender's; both
leave the configuration and `RUN`. -/
def Obligations.SenderAndReceiverShareNoState : Prop :=
  (∀ (i : Instr) (s : State), senderOp i = true →
    ∃ t, exec i s = .next t ∧ t.cfg = s.cfg ∧ t.run = s.run ∧
      ∀ rx cb c, exec i { s with rx := rx, cb := cb, rxCnt := c } = .next { t with rx := rx, cb := cb, rxCnt := c }) ∧
  (∀ (i : Instr) (s : State), receiverOp i = true →
    ∃ t, exec i s = .next t ∧ t.cfg = s.cfg ∧ t.run = s.run ∧
      ∀ tx c, exec i { s with tx := tx, txCnt := c } = .next { t with tx := tx, txCnt := c })

/-- R106 (b): an internal step of the sender and one of the receiver give the same state in either order. -/
def Obligations.InternalStepsCommute : Prop :=
  ∀ (i j : Instr) (s : State), (i = .txSend ∨ i = .txAdvance) → (j = .rxDecode ∨ j = .rxRespond) →
    ∃ t u v, exec i s = .next t ∧ exec j s = .next u ∧ exec j t = .next v ∧ exec i u = .next v

/-- R93, R287: every host command gives exactly one response and leaves the link around the core; a status that is not
`OK` comes with no flag and no data and changes nothing else, but for `CFG_ERR` of a failed `SESSION_START`. -/
def Obligations.RefusedCommandsChangeNothing : Prop :=
  ∀ (i : Instr) (s t : State), wellFormed i = true → portOf i = some .cmd → exec i s = .next t →
    ∃ (status flag : Nat) (data : Bits), status < 16 ∧ flag ≤ 1 ∧ data.length < 2 ^ 24 ∧ t.env = s.env ∧
      t.out = (answered s status flag data).out ∧
      (status ≠ 0 → flag = 0 ∧ data = [] ∧
        (t = answered s status 0 [] ∨
          ((∃ aux p, i = .sessionStart aux p) ∧ status = 6 ∧ t = answered { s with cfgErr := true } 6 0 [])))

/-- R254, R258 (a): an accepted frame is answered by exactly one control word with its tag, an ACK exactly when the one
result word says validated, and the receiver waits again. -/
def Obligations.EveryFrameIsAnsweredOnce : Prop :=
  ∀ (s : State) (seq : SeqNum) (flen : BitVec 8) (bits : Bits), s.run = true → s.rx.state = .waitingFrame →
    let t := after .rxRespond (after .rxDecode (after (.frmIn seq flen bits) s))
    ∃ (w : BitVec 17) (x : TailedWord),
      t.out.ctlOut = s.out.ctlOut ++ [w] ∧ t.out.rxOut = s.out.rxOut ++ [x] ∧ t.rx.state = .waitingFrame ∧
      (w = ctlValue 1 seq.toNat ∨ w = ctlValue 0 seq.toNat) ∧
      (w = ctlValue 1 seq.toNat ↔ x.word.toNat / 2 ^ 28 = 0) ∧ x.word.toNat % 2 ^ 16 = seq.toNat

/-- R226, R230 (a): after a transmission that nothing answers, the sender waits for exactly `TIMEOUT` ticks, the wrap of
`TIME` included. -/
def Obligations.DeadlineStrikesAtTheTimeoutthTick : Prop :=
  ∀ s : State, s.tx.state = .encoding ∨ s.tx.state = .retrying → 1 ≤ s.cfg.timeout.toNat →
    let t := after .txSend s
    (∀ k < s.cfg.timeout.toNat,
      (afterTicks k t).tx.state = .awaitingAck ∧ (afterTicks k t).tx.attempts = s.tx.attempts ∧
      (afterTicks k t).txCnt.timeout = s.txCnt.timeout) ∧
    (afterTicks s.cfg.timeout.toNat t).tx.state ≠ .awaitingAck ∧
    (afterTicks s.cfg.timeout.toNat t).tx.attempts = s.tx.attempts + 1 ∧
    (afterTicks s.cfg.timeout.toNat t).txCnt.timeout = s.txCnt.timeout + 1

/-- R227, R230 (d): with every transmission lost a packet is transmitted exactly `MAX_ATT` times, always the same frame,
takes `MAX_ATT * TIMEOUT` ticks, and ends `Exhausted` with the outcome word of code 5. -/
def Obligations.LostTransmissionsEndExhausted : Prop :=
  ∀ s : State, s.tx.state = .encoding → s.tx.attempts = 0 → 1 ≤ s.cfg.timeout.toNat → 1 ≤ s.cfg.maxAtt.toNat →
    let n := s.cfg.maxAtt.toNat
    let f : Frame :=
      { head := frmHead s.tx.seq (BitVec.ofNat 8 (frameW s.cfg)), bits := txFrame s.cfg s.tx.pay }
    let t := afterLostTransmissions n s
    (∀ k, 1 ≤ k → k < n → (afterLostTransmissions k s).tx.state = .retrying) ∧
    t.tx.state = .exhausted ∧ t.tx.attempts = s.cfg.maxAtt ∧ t.out.frmOut = s.out.frmOut ++ List.replicate n f ∧
    t.txCnt.frames = s.txCnt.frames + BitVec.ofNat 32 n ∧ t.txCnt.retx = s.txCnt.retx + BitVec.ofNat 32 (n - 1) ∧
    t.tx.time = s.tx.time + BitVec.ofNat 32 (n * s.cfg.timeout.toNat) ∧
    (after .txAdvance t).out.txOut = s.out.txOut ++ [txoValue 5 (n - 1) s.tx.seq.toNat] ∧
    (after .txAdvance t).tx.state = .idle

/-- R258 (b), source scenario 1: an uncorrupted frame into an empty buffer validates, with nothing corrected. -/
def Obligations.PerfectFrameValidates : Prop :=
  ∀ (s : State) (p : Bits), s.rx.state = .decoding → cfgOk s.cfg = true → (∀ c ∈ s.cb.acc, c = 0) →
    p.length = dataK s.cfg.variant → s.rx.frm = txFrame s.cfg p → s.rx.len = BitVec.ofNat 8 (frameW s.cfg) →
    ∃ t, exec .rxDecode s = .next t ∧ t.rx.state = .validatedAck ∧ t.rx.res = .ok ∧ t.rx.cor = false ∧
      t.cb.empty = true ∧ t.out.rxOut = s.out.rxOut ++ [rxoValue 0 0 s.rx.seq.toNat p]

/-- R258 (c), source scenario 2: one flipped bit inside the Hamming block is corrected. -/
def Obligations.OneErrorInTheBlockIsCorrected : Prop :=
  ∀ (s : State) (p : Bits) (i : Nat), s.rx.state = .decoding → cfgOk s.cfg = true → (∀ c ∈ s.cb.acc, c = 0) →
    p.length = dataK s.cfg.variant → i < blockN s.cfg.variant → s.rx.frm = flipBit (txFrame s.cfg p) i →
    s.rx.len = BitVec.ofNat 8 (frameW s.cfg) →
    ∃ t, exec .rxDecode s = .next t ∧ t.rx.state = .validatedAck ∧ t.rx.res = .ok ∧ t.rx.cor = true ∧
      t.cb.empty = true ∧ t.out.rxOut = s.out.rxOut ++ [rxoValue 0 1 s.rx.seq.toNat p]

/-- R258 (d): one flipped bit inside the CRC part is answered `CrcMismatch`, with nothing corrected. -/
def Obligations.OneErrorInTheCrcIsNacked : Prop :=
  ∀ (s : State) (p : Bits) (i : Nat), s.rx.state = .decoding → cfgOk s.cfg = true → (∀ c ∈ s.cb.acc, c = 0) →
    p.length = dataK s.cfg.variant → blockN s.cfg.variant ≤ i → i < frameW s.cfg →
    s.rx.frm = flipBit (txFrame s.cfg p) i → s.rx.len = BitVec.ofNat 8 (frameW s.cfg) →
    ∃ t, exec .rxDecode s = .next t ∧ t.rx.state = .invalidatedNack ∧ t.rx.res = .crcMismatch ∧ t.rx.cor = false ∧
      t.cb.empty = false ∧ t.out.rxOut = s.out.rxOut ++ [rxoValue 3 0 s.rx.seq.toNat []]

/-! ## Fetching and encoding -/

/-- A step takes the next turn, reads what that agent presents through the decoder, and is `exec` of it at the state
without it; a port that does not accept leaves it where it is, and only the turn is used up. Turns are the model's
(log 2), and so is what a turn does at a port that does not accept (log 4). -/
def Obligations.StepRunsTheDecodedOperation : Prop :=
  ∀ (s : State) (ts : List Turn),
    (∀ i rest, s.env.turns = .host :: ts → decode .cmd s.env.cmdIn = .ok (i, rest) →
      step s = exec i { s with env := { s.env with turns := ts, cmdIn := rest } }) ∧
    (∀ mask f fs i rest, s.env.turns = .channelDeliver mask :: ts → s.env.chan = f :: fs →
      decode .frmIn (frameWire f mask) = .ok (i, rest) →
      step s = if frmReady s then exec i { s with env := { s.env with turns := ts, chan := fs } }
        else .next { s with env := { s.env with turns := ts } }) ∧
    (∀ f fs, s.env.turns = .channelLose :: ts → s.env.chan = f :: fs →
      step s = if frmReady s then exec .frmLost { s with env := { s.env with turns := ts, chan := fs } }
        else .next { s with env := { s.env with turns := ts } }) ∧
    (∀ w ws i rest, s.env.turns = .controlDeliver :: ts → s.env.ctlPath = w :: ws →
      decode .ctlIn (wordBits 17 w.toNat) = .ok (i, rest) →
      step s = if s.tx.state = .awaitingAck
        then exec i { s with env := { s.env with turns := ts, ctlPath := ws, ctlReady := false } }
        else .next { s with env := { s.env with turns := ts } }) ∧
    (s.env.turns = .clock :: ts → controlFirst s = false →
      step s = exec .tick { s with env := { s.env with turns := ts } }) ∧
    (s.env.turns = .platform :: ts → step s = exec .rst { s with env := { s.env with turns := ts } }) ∧
    (∀ i, s.env.turns = .sender :: ts → senderStep s = some i →
      step s = exec i { s with env := { s.env with turns := ts } }) ∧
    (∀ i, s.env.turns = .receiver :: ts → receiverStep s = some i →
      step s = exec i { s with env := { s.env with turns := ts } })

/-- R308 (a) in the model's reading (log 13, DEDUCED): a control word is available when it stands at `CTL_IN`, which the
bit `ctlReady` says, and is then taken before a `TICK` that would expire the deadline. That the turn of that `TICK` stays
next is the model's too (log 13). -/
def Obligations.PendingControlWordComesBeforeTheDeadline : Prop :=
  ∀ (s : State) (ts : List Turn) (w : BitVec 17) (ws : List (BitVec 17)),
    s.env.turns = .clock :: ts → s.env.ctlReady = true → s.env.ctlPath = w :: ws → s.tx.state = .awaitingAck →
    s.tx.time + 1 = s.tx.deadline →
    step s =
      exec (if w.toNat / 2 ^ 16 = 1 then .ctlAck (BitVec.ofNat 16 w.toNat) else .ctlNack (BitVec.ofNat 16 w.toNat))
        { s with env := { s.env with ctlPath := ws, ctlReady := false } }

/-- Every well-formed operation with an encoding is read back from its encoding, whatever follows it. -/
def Obligations.DecodeReadsBackEveryEncoding : Prop :=
  ∀ (i : Instr) (p : Port) (rest : Bits), wellFormed i = true → portOf i = some p →
    decode p (encode i ++ rest) = .ok (i, rest)

/-- R101: an illegal opcode consumes its payload, changes no state and is answered `BAD_OP`. -/
def Obligations.IllegalOpcodesAnswerBadOp : Prop :=
  ∀ (op : Nat) (aux : BitVec 8) (p rest : Bits) (s : State) (ts : List Turn),
    illegalOpcode op → p.length < 65536 → s.env.turns = .host :: ts → s.env.cmdIn = cmdWire op aux p ++ rest →
    step s = .next (answered { s with env := { s.env with turns := ts, cmdIn := rest } } 8 0 [])

/-- Words written out from the formats decode to the operations they stand for: the header `0x50000004` with payload
`1100`, the header `0x3003000C` with no payload bit yet, the control words `0x10005` and `0x00000`, and a frame head. -/
def Obligations.SampleWordsDecode : Prop :=
  decode .cmd (wordBits 32 0x50000004 ++ [true, true, false, false]) =
      .ok (.pktPush 0 [true, true, false, false], []) ∧
    decode .cmd (wordBits 32 0x3003000C) = .error .incomplete ∧
    decode .cmd (wordBits 32 0x03100000) = .ok (.cfgRd 0x10 [], []) ∧
    decode .ctlIn (wordBits 17 0x10005) = .ok (.ctlAck 5, []) ∧
    decode .ctlIn (wordBits 17 0x00000) = .ok (.ctlNack 0, []) ∧
    decode .frmIn (wordBits 24 0x000702 ++ [true, false]) = .ok (.frmIn 7 2 [true, false], [])
end

