-- ==== Sys2Proof/Laws/State.lean ====
section
/-! SUPPORT. One lemma per field per update of the state: what each operation writes and what it leaves, true by
unfolding, so that no later proof unfolds a record update. -/

namespace Sys2Proof.Machine

/-! ## The response of a command: `respond` -/

@[simp] theorem respond_cfg (st : Cond) (flag : Bool) (data : Bits) (s : State) :
    (respond st flag data s).cfg = s.cfg := rfl
@[simp] theorem respond_run (st : Cond) (flag : Bool) (data : Bits) (s : State) :
    (respond st flag data s).run = s.run := rfl
@[simp] theorem respond_cfgErr (st : Cond) (flag : Bool) (data : Bits) (s : State) :
    (respond st flag data s).cfgErr = s.cfgErr := rfl
@[simp] theorem respond_tx (st : Cond) (flag : Bool) (data : Bits) (s : State) :
    (respond st flag data s).tx = s.tx := rfl
@[simp] theorem respond_rx (st : Cond) (flag : Bool) (data : Bits) (s : State) :
    (respond st flag data s).rx = s.rx := rfl
@[simp] theorem respond_cb (st : Cond) (flag : Bool) (data : Bits) (s : State) :
    (respond st flag data s).cb = s.cb := rfl
@[simp] theorem respond_txCnt (st : Cond) (flag : Bool) (data : Bits) (s : State) :
    (respond st flag data s).txCnt = s.txCnt := rfl
@[simp] theorem respond_rxCnt (st : Cond) (flag : Bool) (data : Bits) (s : State) :
    (respond st flag data s).rxCnt = s.rxCnt := rfl
@[simp] theorem respond_env (st : Cond) (flag : Bool) (data : Bits) (s : State) :
    (respond st flag data s).env = s.env := rfl
@[simp] theorem respond_out_rsp (st : Cond) (flag : Bool) (data : Bits) (s : State) :
    (respond st flag data s).out.rsp = s.out.rsp ++ [rspWord st flag data] := rfl
@[simp] theorem respond_out_frmOut (st : Cond) (flag : Bool) (data : Bits) (s : State) :
    (respond st flag data s).out.frmOut = s.out.frmOut := rfl
@[simp] theorem respond_out_ctlOut (st : Cond) (flag : Bool) (data : Bits) (s : State) :
    (respond st flag data s).out.ctlOut = s.out.ctlOut := rfl
@[simp] theorem respond_out_txOut (st : Cond) (flag : Bool) (data : Bits) (s : State) :
    (respond st flag data s).out.txOut = s.out.txOut := rfl
@[simp] theorem respond_out_rxOut (st : Cond) (flag : Bool) (data : Bits) (s : State) :
    (respond st flag data s).out.rxOut = s.out.rxOut := rfl

/-! ## A refusal: `refuse` -/

@[simp] theorem refuse_cfg (st : Cond) (s : State) : (refuse st s).cfg = s.cfg := rfl
@[simp] theorem refuse_run (st : Cond) (s : State) : (refuse st s).run = s.run := rfl
@[simp] theorem refuse_cfgErr (st : Cond) (s : State) : (refuse st s).cfgErr = s.cfgErr := rfl
@[simp] theorem refuse_tx (st : Cond) (s : State) : (refuse st s).tx = s.tx := rfl
@[simp] theorem refuse_rx (st : Cond) (s : State) : (refuse st s).rx = s.rx := rfl
@[simp] theorem refuse_cb (st : Cond) (s : State) : (refuse st s).cb = s.cb := rfl
@[simp] theorem refuse_txCnt (st : Cond) (s : State) : (refuse st s).txCnt = s.txCnt := rfl
@[simp] theorem refuse_rxCnt (st : Cond) (s : State) : (refuse st s).rxCnt = s.rxCnt := rfl
@[simp] theorem refuse_env (st : Cond) (s : State) : (refuse st s).env = s.env := rfl
@[simp] theorem refuse_out_rsp (st : Cond) (s : State) :
    (refuse st s).out.rsp = s.out.rsp ++ [rspWord st false []] := rfl
@[simp] theorem refuse_out_frmOut (st : Cond) (s : State) : (refuse st s).out.frmOut = s.out.frmOut := rfl
@[simp] theorem refuse_out_ctlOut (st : Cond) (s : State) : (refuse st s).out.ctlOut = s.out.ctlOut := rfl
@[simp] theorem refuse_out_txOut (st : Cond) (s : State) : (refuse st s).out.txOut = s.out.txOut := rfl
@[simp] theorem refuse_out_rxOut (st : Cond) (s : State) : (refuse st s).out.rxOut = s.out.rxOut := rfl

/-! ## A frame emitted: `emitFrame` -/

@[simp] theorem emitFrame_cfg (f : Frame) (s : State) : (emitFrame f s).cfg = s.cfg := rfl
@[simp] theorem emitFrame_run (f : Frame) (s : State) : (emitFrame f s).run = s.run := rfl
@[simp] theorem emitFrame_cfgErr (f : Frame) (s : State) : (emitFrame f s).cfgErr = s.cfgErr := rfl
@[simp] theorem emitFrame_tx (f : Frame) (s : State) : (emitFrame f s).tx = s.tx := rfl
@[simp] theorem emitFrame_rx (f : Frame) (s : State) : (emitFrame f s).rx = s.rx := rfl
@[simp] theorem emitFrame_cb (f : Frame) (s : State) : (emitFrame f s).cb = s.cb := rfl
@[simp] theorem emitFrame_txCnt (f : Frame) (s : State) : (emitFrame f s).txCnt = s.txCnt := rfl
@[simp] theorem emitFrame_rxCnt (f : Frame) (s : State) : (emitFrame f s).rxCnt = s.rxCnt := rfl
@[simp] theorem emitFrame_env_cmdIn (f : Frame) (s : State) : (emitFrame f s).env.cmdIn = s.env.cmdIn := rfl
@[simp] theorem emitFrame_env_chan (f : Frame) (s : State) : (emitFrame f s).env.chan = s.env.chan ++ [f] := rfl
@[simp] theorem emitFrame_env_ctlPath (f : Frame) (s : State) : (emitFrame f s).env.ctlPath = s.env.ctlPath := rfl
@[simp] theorem emitFrame_env_ctlReady (f : Frame) (s : State) : (emitFrame f s).env.ctlReady = s.env.ctlReady := rfl
@[simp] theorem emitFrame_env_turns (f : Frame) (s : State) : (emitFrame f s).env.turns = s.env.turns := rfl
@[simp] theorem emitFrame_out_rsp (f : Frame) (s : State) : (emitFrame f s).out.rsp = s.out.rsp := rfl
@[simp] theorem emitFrame_out_frmOut (f : Frame) (s : State) : (emitFrame f s).out.frmOut = s.out.frmOut ++ [f] := rfl
@[simp] theorem emitFrame_out_ctlOut (f : Frame) (s : State) : (emitFrame f s).out.ctlOut = s.out.ctlOut := rfl
@[simp] theorem emitFrame_out_txOut (f : Frame) (s : State) : (emitFrame f s).out.txOut = s.out.txOut := rfl
@[simp] theorem emitFrame_out_rxOut (f : Frame) (s : State) : (emitFrame f s).out.rxOut = s.out.rxOut := rfl

/-! ## A control word emitted: `emitControl` -/

@[simp] theorem emitControl_cfg (w : BitVec 17) (s : State) : (emitControl w s).cfg = s.cfg := rfl
@[simp] theorem emitControl_run (w : BitVec 17) (s : State) : (emitControl w s).run = s.run := rfl
@[simp] theorem emitControl_cfgErr (w : BitVec 17) (s : State) : (emitControl w s).cfgErr = s.cfgErr := rfl
@[simp] theorem emitControl_tx (w : BitVec 17) (s : State) : (emitControl w s).tx = s.tx := rfl
@[simp] theorem emitControl_rx (w : BitVec 17) (s : State) : (emitControl w s).rx = s.rx := rfl
@[simp] theorem emitControl_cb (w : BitVec 17) (s : State) : (emitControl w s).cb = s.cb := rfl
@[simp] theorem emitControl_txCnt (w : BitVec 17) (s : State) : (emitControl w s).txCnt = s.txCnt := rfl
@[simp] theorem emitControl_rxCnt (w : BitVec 17) (s : State) : (emitControl w s).rxCnt = s.rxCnt := rfl
@[simp] theorem emitControl_env_cmdIn (w : BitVec 17) (s : State) : (emitControl w s).env.cmdIn = s.env.cmdIn := rfl
@[simp] theorem emitControl_env_chan (w : BitVec 17) (s : State) : (emitControl w s).env.chan = s.env.chan := rfl
@[simp] theorem emitControl_env_ctlPath (w : BitVec 17) (s : State) :
    (emitControl w s).env.ctlPath = s.env.ctlPath ++ [w] := rfl
@[simp] theorem emitControl_env_ctlReady (w : BitVec 17) (s : State) :
    (emitControl w s).env.ctlReady = s.env.ctlReady := rfl
@[simp] theorem emitControl_env_turns (w : BitVec 17) (s : State) : (emitControl w s).env.turns = s.env.turns := rfl
@[simp] theorem emitControl_out_rsp (w : BitVec 17) (s : State) : (emitControl w s).out.rsp = s.out.rsp := rfl
@[simp] theorem emitControl_out_frmOut (w : BitVec 17) (s : State) :
    (emitControl w s).out.frmOut = s.out.frmOut := rfl
@[simp] theorem emitControl_out_ctlOut (w : BitVec 17) (s : State) :
    (emitControl w s).out.ctlOut = s.out.ctlOut ++ [w] := rfl
@[simp] theorem emitControl_out_txOut (w : BitVec 17) (s : State) : (emitControl w s).out.txOut = s.out.txOut := rfl
@[simp] theorem emitControl_out_rxOut (w : BitVec 17) (s : State) : (emitControl w s).out.rxOut = s.out.rxOut := rfl

/-! ## An outcome word emitted: `emitTxOut` -/

@[simp] theorem emitTxOut_cfg (w : BitVec 32) (s : State) : (emitTxOut w s).cfg = s.cfg := rfl
@[simp] theorem emitTxOut_run (w : BitVec 32) (s : State) : (emitTxOut w s).run = s.run := rfl
@[simp] theorem emitTxOut_cfgErr (w : BitVec 32) (s : State) : (emitTxOut w s).cfgErr = s.cfgErr := rfl
@[simp] theorem emitTxOut_tx (w : BitVec 32) (s : State) : (emitTxOut w s).tx = s.tx := rfl
@[simp] theorem emitTxOut_rx (w : BitVec 32) (s : State) : (emitTxOut w s).rx = s.rx := rfl
@[simp] theorem emitTxOut_cb (w : BitVec 32) (s : State) : (emitTxOut w s).cb = s.cb := rfl
@[simp] theorem emitTxOut_txCnt (w : BitVec 32) (s : State) : (emitTxOut w s).txCnt = s.txCnt := rfl
@[simp] theorem emitTxOut_rxCnt (w : BitVec 32) (s : State) : (emitTxOut w s).rxCnt = s.rxCnt := rfl
@[simp] theorem emitTxOut_env (w : BitVec 32) (s : State) : (emitTxOut w s).env = s.env := rfl
@[simp] theorem emitTxOut_out_rsp (w : BitVec 32) (s : State) : (emitTxOut w s).out.rsp = s.out.rsp := rfl
@[simp] theorem emitTxOut_out_frmOut (w : BitVec 32) (s : State) : (emitTxOut w s).out.frmOut = s.out.frmOut := rfl
@[simp] theorem emitTxOut_out_ctlOut (w : BitVec 32) (s : State) : (emitTxOut w s).out.ctlOut = s.out.ctlOut := rfl
@[simp] theorem emitTxOut_out_txOut (w : BitVec 32) (s : State) :
    (emitTxOut w s).out.txOut = s.out.txOut ++ [w] := rfl
@[simp] theorem emitTxOut_out_rxOut (w : BitVec 32) (s : State) : (emitTxOut w s).out.rxOut = s.out.rxOut := rfl

/-! ## A result word emitted: `emitRxOut` -/

@[simp] theorem emitRxOut_cfg (w : TailedWord) (s : State) : (emitRxOut w s).cfg = s.cfg := rfl
@[simp] theorem emitRxOut_run (w : TailedWord) (s : State) : (emitRxOut w s).run = s.run := rfl
@[simp] theorem emitRxOut_cfgErr (w : TailedWord) (s : State) : (emitRxOut w s).cfgErr = s.cfgErr := rfl
@[simp] theorem emitRxOut_tx (w : TailedWord) (s : State) : (emitRxOut w s).tx = s.tx := rfl
@[simp] theorem emitRxOut_rx (w : TailedWord) (s : State) : (emitRxOut w s).rx = s.rx := rfl
@[simp] theorem emitRxOut_cb (w : TailedWord) (s : State) : (emitRxOut w s).cb = s.cb := rfl
@[simp] theorem emitRxOut_txCnt (w : TailedWord) (s : State) : (emitRxOut w s).txCnt = s.txCnt := rfl
@[simp] theorem emitRxOut_rxCnt (w : TailedWord) (s : State) : (emitRxOut w s).rxCnt = s.rxCnt := rfl
@[simp] theorem emitRxOut_env (w : TailedWord) (s : State) : (emitRxOut w s).env = s.env := rfl
@[simp] theorem emitRxOut_out_rsp (w : TailedWord) (s : State) : (emitRxOut w s).out.rsp = s.out.rsp := rfl
@[simp] theorem emitRxOut_out_frmOut (w : TailedWord) (s : State) : (emitRxOut w s).out.frmOut = s.out.frmOut := rfl
@[simp] theorem emitRxOut_out_ctlOut (w : TailedWord) (s : State) : (emitRxOut w s).out.ctlOut = s.out.ctlOut := rfl
@[simp] theorem emitRxOut_out_txOut (w : TailedWord) (s : State) : (emitRxOut w s).out.txOut = s.out.txOut := rfl
@[simp] theorem emitRxOut_out_rxOut (w : TailedWord) (s : State) :
    (emitRxOut w s).out.rxOut = s.out.rxOut ++ [w] := rfl

/-! ## Reset: `resetCore` -/

@[simp] theorem resetCore_cfg (s : State) : (resetCore s).cfg = Cfg.reset := rfl
@[simp] theorem resetCore_run (s : State) : (resetCore s).run = false := rfl
@[simp] theorem resetCore_cfgErr (s : State) : (resetCore s).cfgErr = false := rfl
@[simp] theorem resetCore_tx (s : State) : (resetCore s).tx = Tx.reset := rfl
@[simp] theorem resetCore_rx (s : State) : (resetCore s).rx = Rx.reset := rfl
@[simp] theorem resetCore_cb (s : State) : (resetCore s).cb = Cb.reset := rfl
@[simp] theorem resetCore_txCnt (s : State) : (resetCore s).txCnt = TxCounters.zero := rfl
@[simp] theorem resetCore_rxCnt (s : State) : (resetCore s).rxCnt = RxCounters.zero := rfl
@[simp] theorem resetCore_env (s : State) : (resetCore s).env = s.env := rfl
@[simp] theorem resetCore_out (s : State) : (resetCore s).out = s.out := rfl

/-! ## The buffer cleared: `cbClear` -/

@[simp] theorem cbClear_cfg (s : State) : (cbClear s).cfg = s.cfg := rfl
@[simp] theorem cbClear_run (s : State) : (cbClear s).run = s.run := rfl
@[simp] theorem cbClear_cfgErr (s : State) : (cbClear s).cfgErr = s.cfgErr := rfl
@[simp] theorem cbClear_tx (s : State) : (cbClear s).tx = s.tx := rfl
@[simp] theorem cbClear_rx (s : State) : (cbClear s).rx = s.rx := rfl
@[simp] theorem cbClear_cb_acc (s : State) : (cbClear s).cb.acc = List.replicate Config.cbCells 0 := rfl
@[simp] theorem cbClear_cb_empty (s : State) : (cbClear s).cb.empty = true := rfl
@[simp] theorem cbClear_cb_seq (s : State) : (cbClear s).cb.seq = s.cb.seq := rfl
@[simp] theorem cbClear_cb_cnt (s : State) : (cbClear s).cb.cnt = 0 := rfl
@[simp] theorem cbClear_txCnt (s : State) : (cbClear s).txCnt = s.txCnt := rfl
@[simp] theorem cbClear_rxCnt (s : State) : (cbClear s).rxCnt = s.rxCnt := rfl
@[simp] theorem cbClear_env (s : State) : (cbClear s).env = s.env := rfl
@[simp] theorem cbClear_out (s : State) : (cbClear s).out = s.out := rfl

/-! ## A reception committed: `cbCommit` -/

@[simp] theorem cbCommit_cfg (acc' : List AccCell) (s : State) : (cbCommit acc' s).cfg = s.cfg := rfl
@[simp] theorem cbCommit_run (acc' : List AccCell) (s : State) : (cbCommit acc' s).run = s.run := rfl
@[simp] theorem cbCommit_cfgErr (acc' : List AccCell) (s : State) : (cbCommit acc' s).cfgErr = s.cfgErr := rfl
@[simp] theorem cbCommit_tx (acc' : List AccCell) (s : State) : (cbCommit acc' s).tx = s.tx := rfl
@[simp] theorem cbCommit_rx (acc' : List AccCell) (s : State) : (cbCommit acc' s).rx = s.rx := rfl
@[simp] theorem cbCommit_cb_acc (acc' : List AccCell) (s : State) :
    (cbCommit acc' s).cb.acc = commitCells (frameW s.cfg) acc' s.cb.acc := rfl
@[simp] theorem cbCommit_cb_empty (acc' : List AccCell) (s : State) : (cbCommit acc' s).cb.empty = false := rfl
@[simp] theorem cbCommit_cb_seq (acc' : List AccCell) (s : State) : (cbCommit acc' s).cb.seq = s.cb.seq := rfl
@[simp] theorem cbCommit_cb_cnt (acc' : List AccCell) (s : State) :
    (cbCommit acc' s).cb.cnt = if s.cb.cnt = 255 then 255 else s.cb.cnt + 1 := rfl
@[simp] theorem cbCommit_txCnt (acc' : List AccCell) (s : State) : (cbCommit acc' s).txCnt = s.txCnt := rfl
@[simp] theorem cbCommit_rxCnt (acc' : List AccCell) (s : State) : (cbCommit acc' s).rxCnt = s.rxCnt := rfl
@[simp] theorem cbCommit_env (acc' : List AccCell) (s : State) : (cbCommit acc' s).env = s.env := rfl
@[simp] theorem cbCommit_out (acc' : List AccCell) (s : State) : (cbCommit acc' s).out = s.out := rfl

/-! ## A stale control word: `ctlStale` -/

@[simp] theorem ctlStale_cfg (s : State) : (ctlStale s).cfg = s.cfg := rfl
@[simp] theorem ctlStale_run (s : State) : (ctlStale s).run = s.run := rfl
@[simp] theorem ctlStale_cfgErr (s : State) : (ctlStale s).cfgErr = s.cfgErr := rfl
@[simp] theorem ctlStale_tx (s : State) : (ctlStale s).tx = s.tx := rfl
@[simp] theorem ctlStale_rx (s : State) : (ctlStale s).rx = s.rx := rfl
@[simp] theorem ctlStale_cb (s : State) : (ctlStale s).cb = s.cb := rfl
@[simp] theorem ctlStale_txCnt_frames (s : State) : (ctlStale s).txCnt.frames = s.txCnt.frames := rfl
@[simp] theorem ctlStale_txCnt_retx (s : State) : (ctlStale s).txCnt.retx = s.txCnt.retx := rfl
@[simp] theorem ctlStale_txCnt_acked (s : State) : (ctlStale s).txCnt.acked = s.txCnt.acked := rfl
@[simp] theorem ctlStale_txCnt_exhausted (s : State) : (ctlStale s).txCnt.exhausted = s.txCnt.exhausted := rfl
@[simp] theorem ctlStale_txCnt_stale (s : State) : (ctlStale s).txCnt.stale = s.txCnt.stale + 1 := rfl
@[simp] theorem ctlStale_txCnt_timeout (s : State) : (ctlStale s).txCnt.timeout = s.txCnt.timeout := rfl
@[simp] theorem ctlStale_rxCnt (s : State) : (ctlStale s).rxCnt = s.rxCnt := rfl
@[simp] theorem ctlStale_env (s : State) : (ctlStale s).env = s.env := rfl
@[simp] theorem ctlStale_out (s : State) : (ctlStale s).out = s.out := rfl

/-! ## A result recorded: `rxRecord` -/

@[simp] theorem rxRecord_cfg (code : Cond) (cor : Bool) (data : Bits) (st : RxState) (s : State) :
    (rxRecord code cor data st s).cfg = s.cfg := rfl
@[simp] theorem rxRecord_run (code : Cond) (cor : Bool) (data : Bits) (st : RxState) (s : State) :
    (rxRecord code cor data st s).run = s.run := rfl
@[simp] theorem rxRecord_cfgErr (code : Cond) (cor : Bool) (data : Bits) (st : RxState) (s : State) :
    (rxRecord code cor data st s).cfgErr = s.cfgErr := rfl
@[simp] theorem rxRecord_tx (code : Cond) (cor : Bool) (data : Bits) (st : RxState) (s : State) :
    (rxRecord code cor data st s).tx = s.tx := rfl
@[simp] theorem rxRecord_rx_state (code : Cond) (cor : Bool) (data : Bits) (st : RxState) (s : State) :
    (rxRecord code cor data st s).rx.state = st := rfl
@[simp] theorem rxRecord_rx_frm (code : Cond) (cor : Bool) (data : Bits) (st : RxState) (s : State) :
    (rxRecord code cor data st s).rx.frm = s.rx.frm := rfl
@[simp] theorem rxRecord_rx_len (code : Cond) (cor : Bool) (data : Bits) (st : RxState) (s : State) :
    (rxRecord code cor data st s).rx.len = s.rx.len := rfl
@[simp] theorem rxRecord_rx_seq (code : Cond) (cor : Bool) (data : Bits) (st : RxState) (s : State) :
    (rxRecord code cor data st s).rx.seq = s.rx.seq := rfl
@[simp] theorem rxRecord_rx_res (code : Cond) (cor : Bool) (data : Bits) (st : RxState) (s : State) :
    (rxRecord code cor data st s).rx.res = code := rfl
@[simp] theorem rxRecord_rx_cor (code : Cond) (cor : Bool) (data : Bits) (st : RxState) (s : State) :
    (rxRecord code cor data st s).rx.cor = cor := rfl
@[simp] theorem rxRecord_rx_lastErr (code : Cond) (cor : Bool) (data : Bits) (st : RxState) (s : State) :
    (rxRecord code cor data st s).rx.lastErr = code := rfl
@[simp] theorem rxRecord_cb (code : Cond) (cor : Bool) (data : Bits) (st : RxState) (s : State) :
    (rxRecord code cor data st s).cb = s.cb := rfl
@[simp] theorem rxRecord_txCnt (code : Cond) (cor : Bool) (data : Bits) (st : RxState) (s : State) :
    (rxRecord code cor data st s).txCnt = s.txCnt := rfl
@[simp] theorem rxRecord_rxCnt_lost (code : Cond) (cor : Bool) (data : Bits) (st : RxState) (s : State) :
    (rxRecord code cor data st s).rxCnt.lost = s.rxCnt.lost := rfl
@[simp] theorem rxRecord_rxCnt_rxframes (code : Cond) (cor : Bool) (data : Bits) (st : RxState) (s : State) :
    (rxRecord code cor data st s).rxCnt.rxframes = s.rxCnt.rxframes := rfl
@[simp] theorem rxRecord_rxCnt_valid (code : Cond) (cor : Bool) (data : Bits) (st : RxState) (s : State) :
    (rxRecord code cor data st s).rxCnt.valid = s.rxCnt.valid := rfl
@[simp] theorem rxRecord_rxCnt_crcfail (code : Cond) (cor : Bool) (data : Bits) (st : RxState) (s : State) :
    (rxRecord code cor data st s).rxCnt.crcfail = s.rxCnt.crcfail := rfl
@[simp] theorem rxRecord_rxCnt_synfail (code : Cond) (cor : Bool) (data : Bits) (st : RxState) (s : State) :
    (rxRecord code cor data st s).rxCnt.synfail = s.rxCnt.synfail := rfl
@[simp] theorem rxRecord_rxCnt_malformed (code : Cond) (cor : Bool) (data : Bits) (st : RxState) (s : State) :
    (rxRecord code cor data st s).rxCnt.malformed = s.rxCnt.malformed := rfl
@[simp] theorem rxRecord_rxCnt_corrected (code : Cond) (cor : Bool) (data : Bits) (st : RxState) (s : State) :
    (rxRecord code cor data st s).rxCnt.corrected = if cor then s.rxCnt.corrected + 1 else s.rxCnt.corrected := rfl
@[simp] theorem rxRecord_env (code : Cond) (cor : Bool) (data : Bits) (st : RxState) (s : State) :
    (rxRecord code cor data st s).env = s.env := rfl
@[simp] theorem rxRecord_out_rsp (code : Cond) (cor : Bool) (data : Bits) (st : RxState) (s : State) :
    (rxRecord code cor data st s).out.rsp = s.out.rsp := rfl
@[simp] theorem rxRecord_out_frmOut (code : Cond) (cor : Bool) (data : Bits) (st : RxState) (s : State) :
    (rxRecord code cor data st s).out.frmOut = s.out.frmOut := rfl
@[simp] theorem rxRecord_out_ctlOut (code : Cond) (cor : Bool) (data : Bits) (st : RxState) (s : State) :
    (rxRecord code cor data st s).out.ctlOut = s.out.ctlOut := rfl
@[simp] theorem rxRecord_out_txOut (code : Cond) (cor : Bool) (data : Bits) (st : RxState) (s : State) :
    (rxRecord code cor data st s).out.txOut = s.out.txOut := rfl
@[simp] theorem rxRecord_out_rxOut (code : Cond) (cor : Bool) (data : Bits) (st : RxState) (s : State) :
    (rxRecord code cor data st s).out.rxOut = s.out.rxOut ++ [rxoWord code cor s.rx.seq data] := rfl

/-! ## The answer to a frame: `rxEmitControl` -/

@[simp] theorem rxEmitControl_cfg (ack : Bool) (s : State) : (rxEmitControl ack s).cfg = s.cfg := rfl
@[simp] theorem rxEmitControl_run (ack : Bool) (s : State) : (rxEmitControl ack s).run = s.run := rfl
@[simp] theorem rxEmitControl_cfgErr (ack : Bool) (s : State) : (rxEmitControl ack s).cfgErr = s.cfgErr := rfl
@[simp] theorem rxEmitControl_tx (ack : Bool) (s : State) : (rxEmitControl ack s).tx = s.tx := rfl
@[simp] theorem rxEmitControl_rx_state (ack : Bool) (s : State) :
    (rxEmitControl ack s).rx.state = .waitingFrame := rfl
@[simp] theorem rxEmitControl_rx_frm (ack : Bool) (s : State) : (rxEmitControl ack s).rx.frm = s.rx.frm := rfl
@[simp] theorem rxEmitControl_rx_len (ack : Bool) (s : State) : (rxEmitControl ack s).rx.len = s.rx.len := rfl
@[simp] theorem rxEmitControl_rx_seq (ack : Bool) (s : State) : (rxEmitControl ack s).rx.seq = s.rx.seq := rfl
@[simp] theorem rxEmitControl_rx_res (ack : Bool) (s : State) : (rxEmitControl ack s).rx.res = s.rx.res := rfl
@[simp] theorem rxEmitControl_rx_cor (ack : Bool) (s : State) : (rxEmitControl ack s).rx.cor = s.rx.cor := rfl
@[simp] theorem rxEmitControl_rx_lastErr (ack : Bool) (s : State) :
    (rxEmitControl ack s).rx.lastErr = s.rx.lastErr := rfl
@[simp] theorem rxEmitControl_cb (ack : Bool) (s : State) : (rxEmitControl ack s).cb = s.cb := rfl
@[simp] theorem rxEmitControl_txCnt (ack : Bool) (s : State) : (rxEmitControl ack s).txCnt = s.txCnt := rfl
@[simp] theorem rxEmitControl_rxCnt (ack : Bool) (s : State) : (rxEmitControl ack s).rxCnt = s.rxCnt := rfl
@[simp] theorem rxEmitControl_env_cmdIn (ack : Bool) (s : State) :
    (rxEmitControl ack s).env.cmdIn = s.env.cmdIn := rfl
@[simp] theorem rxEmitControl_env_chan (ack : Bool) (s : State) : (rxEmitControl ack s).env.chan = s.env.chan := rfl
@[simp] theorem rxEmitControl_env_ctlPath (ack : Bool) (s : State) :
    (rxEmitControl ack s).env.ctlPath = s.env.ctlPath ++ [ctlWord ack s.rx.seq] := rfl
@[simp] theorem rxEmitControl_env_ctlReady (ack : Bool) (s : State) :
    (rxEmitControl ack s).env.ctlReady = s.env.ctlReady := rfl
@[simp] theorem rxEmitControl_env_turns (ack : Bool) (s : State) :
    (rxEmitControl ack s).env.turns = s.env.turns := rfl
@[simp] theorem rxEmitControl_out_rsp (ack : Bool) (s : State) : (rxEmitControl ack s).out.rsp = s.out.rsp := rfl
@[simp] theorem rxEmitControl_out_frmOut (ack : Bool) (s : State) :
    (rxEmitControl ack s).out.frmOut = s.out.frmOut := rfl
@[simp] theorem rxEmitControl_out_ctlOut (ack : Bool) (s : State) :
    (rxEmitControl ack s).out.ctlOut = s.out.ctlOut ++ [ctlWord ack s.rx.seq] := rfl
@[simp] theorem rxEmitControl_out_txOut (ack : Bool) (s : State) :
    (rxEmitControl ack s).out.txOut = s.out.txOut := rfl
@[simp] theorem rxEmitControl_out_rxOut (ack : Bool) (s : State) :
    (rxEmitControl ack s).out.rxOut = s.out.rxOut := rfl

/-! ## A session started: `startSession` -/

@[simp] theorem startSession_cfg (s : State) : (startSession s).cfg = s.cfg := rfl
@[simp] theorem startSession_run (s : State) : (startSession s).run = true := rfl
@[simp] theorem startSession_cfgErr (s : State) : (startSession s).cfgErr = false := rfl
@[simp] theorem startSession_tx_state (s : State) : (startSession s).tx.state = s.tx.state := rfl
@[simp] theorem startSession_tx_seq (s : State) : (startSession s).tx.seq = 0 := rfl
@[simp] theorem startSession_tx_attempts (s : State) : (startSession s).tx.attempts = 0 := rfl
@[simp] theorem startSession_tx_outstanding (s : State) : (startSession s).tx.outstanding = false := rfl
@[simp] theorem startSession_tx_deadline (s : State) : (startSession s).tx.deadline = s.tx.deadline := rfl
@[simp] theorem startSession_tx_pay (s : State) : (startSession s).tx.pay = s.tx.pay := rfl
@[simp] theorem startSession_tx_seqOvf (s : State) : (startSession s).tx.seqOvf = false := rfl
@[simp] theorem startSession_tx_time (s : State) : (startSession s).tx.time = s.tx.time := rfl
@[simp] theorem startSession_rx_state (s : State) : (startSession s).rx.state = s.rx.state := rfl
@[simp] theorem startSession_rx_frm (s : State) : (startSession s).rx.frm = s.rx.frm := rfl
@[simp] theorem startSession_rx_len (s : State) : (startSession s).rx.len = s.rx.len := rfl
@[simp] theorem startSession_rx_seq (s : State) : (startSession s).rx.seq = s.rx.seq := rfl
@[simp] theorem startSession_rx_res (s : State) : (startSession s).rx.res = s.rx.res := rfl
@[simp] theorem startSession_rx_cor (s : State) : (startSession s).rx.cor = s.rx.cor := rfl
@[simp] theorem startSession_rx_lastErr (s : State) : (startSession s).rx.lastErr = .ok := rfl
@[simp] theorem startSession_cb_acc (s : State) : (startSession s).cb.acc = List.replicate Config.cbCells 0 := rfl
@[simp] theorem startSession_cb_empty (s : State) : (startSession s).cb.empty = true := rfl
@[simp] theorem startSession_cb_seq (s : State) : (startSession s).cb.seq = 0 := rfl
@[simp] theorem startSession_cb_cnt (s : State) : (startSession s).cb.cnt = 0 := rfl
@[simp] theorem startSession_txCnt (s : State) : (startSession s).txCnt = TxCounters.zero := rfl
@[simp] theorem startSession_rxCnt (s : State) : (startSession s).rxCnt = RxCounters.zero := rfl
@[simp] theorem startSession_env (s : State) : (startSession s).env = s.env := rfl
@[simp] theorem startSession_out (s : State) : (startSession s).out = s.out := rfl

/-! ## A frame sent: `sendFrame` -/

@[simp] theorem sendFrame_cfg (s : State) : (sendFrame s).cfg = s.cfg := rfl
@[simp] theorem sendFrame_run (s : State) : (sendFrame s).run = s.run := rfl
@[simp] theorem sendFrame_cfgErr (s : State) : (sendFrame s).cfgErr = s.cfgErr := rfl
@[simp] theorem sendFrame_tx_state (s : State) : (sendFrame s).tx.state = .awaitingAck := rfl
@[simp] theorem sendFrame_tx_seq (s : State) : (sendFrame s).tx.seq = s.tx.seq := rfl
@[simp] theorem sendFrame_tx_attempts (s : State) : (sendFrame s).tx.attempts = s.tx.attempts := rfl
@[simp] theorem sendFrame_tx_outstanding (s : State) : (sendFrame s).tx.outstanding = true := rfl
@[simp] theorem sendFrame_tx_deadline (s : State) : (sendFrame s).tx.deadline = s.tx.time + s.cfg.timeout := rfl
@[simp] theorem sendFrame_tx_pay (s : State) : (sendFrame s).tx.pay = s.tx.pay := rfl
@[simp] theorem sendFrame_tx_seqOvf (s : State) : (sendFrame s).tx.seqOvf = s.tx.seqOvf := rfl
@[simp] theorem sendFrame_tx_time (s : State) : (sendFrame s).tx.time = s.tx.time := rfl
@[simp] theorem sendFrame_rx (s : State) : (sendFrame s).rx = s.rx := rfl
@[simp] theorem sendFrame_cb (s : State) : (sendFrame s).cb = s.cb := rfl
@[simp] theorem sendFrame_txCnt_frames (s : State) : (sendFrame s).txCnt.frames = s.txCnt.frames + 1 := rfl
@[simp] theorem sendFrame_txCnt_retx (s : State) :
    (sendFrame s).txCnt.retx = if s.tx.state = .retrying then s.txCnt.retx + 1 else s.txCnt.retx := rfl
@[simp] theorem sendFrame_txCnt_acked (s : State) : (sendFrame s).txCnt.acked = s.txCnt.acked := rfl
@[simp] theorem sendFrame_txCnt_exhausted (s : State) : (sendFrame s).txCnt.exhausted = s.txCnt.exhausted := rfl
@[simp] theorem sendFrame_txCnt_stale (s : State) : (sendFrame s).txCnt.stale = s.txCnt.stale := rfl
@[simp] theorem sendFrame_txCnt_timeout (s : State) : (sendFrame s).txCnt.timeout = s.txCnt.timeout := rfl
@[simp] theorem sendFrame_rxCnt (s : State) : (sendFrame s).rxCnt = s.rxCnt := rfl
@[simp] theorem sendFrame_env_cmdIn (s : State) : (sendFrame s).env.cmdIn = s.env.cmdIn := rfl
@[simp] theorem sendFrame_env_ctlPath (s : State) : (sendFrame s).env.ctlPath = s.env.ctlPath := rfl
@[simp] theorem sendFrame_env_ctlReady (s : State) : (sendFrame s).env.ctlReady = s.env.ctlReady := rfl
@[simp] theorem sendFrame_env_turns (s : State) : (sendFrame s).env.turns = s.env.turns := rfl
@[simp] theorem sendFrame_out_rsp (s : State) : (sendFrame s).out.rsp = s.out.rsp := rfl
@[simp] theorem sendFrame_out_ctlOut (s : State) : (sendFrame s).out.ctlOut = s.out.ctlOut := rfl
@[simp] theorem sendFrame_out_txOut (s : State) : (sendFrame s).out.txOut = s.out.txOut := rfl
@[simp] theorem sendFrame_out_rxOut (s : State) : (sendFrame s).out.rxOut = s.out.rxOut := rfl

/-! ## An ACK taken: `takeAck` -/

@[simp] theorem takeAck_cfg (s : State) : (takeAck s).cfg = s.cfg := rfl
@[simp] theorem takeAck_run (s : State) : (takeAck s).run = s.run := rfl
@[simp] theorem takeAck_cfgErr (s : State) : (takeAck s).cfgErr = s.cfgErr := rfl
@[simp] theorem takeAck_tx_state (s : State) : (takeAck s).tx.state = .acked := rfl
@[simp] theorem takeAck_tx_seq (s : State) : (takeAck s).tx.seq = s.tx.seq := rfl
@[simp] theorem takeAck_tx_attempts (s : State) : (takeAck s).tx.attempts = s.tx.attempts := rfl
@[simp] theorem takeAck_tx_outstanding (s : State) : (takeAck s).tx.outstanding = false := rfl
@[simp] theorem takeAck_tx_deadline (s : State) : (takeAck s).tx.deadline = s.tx.deadline := rfl
@[simp] theorem takeAck_tx_pay (s : State) : (takeAck s).tx.pay = s.tx.pay := rfl
@[simp] theorem takeAck_tx_seqOvf (s : State) : (takeAck s).tx.seqOvf = s.tx.seqOvf := rfl
@[simp] theorem takeAck_tx_time (s : State) : (takeAck s).tx.time = s.tx.time := rfl
@[simp] theorem takeAck_rx (s : State) : (takeAck s).rx = s.rx := rfl
@[simp] theorem takeAck_cb (s : State) : (takeAck s).cb = s.cb := rfl
@[simp] theorem takeAck_txCnt_frames (s : State) : (takeAck s).txCnt.frames = s.txCnt.frames := rfl
@[simp] theorem takeAck_txCnt_retx (s : State) : (takeAck s).txCnt.retx = s.txCnt.retx := rfl
@[simp] theorem takeAck_txCnt_acked (s : State) : (takeAck s).txCnt.acked = s.txCnt.acked + 1 := rfl
@[simp] theorem takeAck_txCnt_exhausted (s : State) : (takeAck s).txCnt.exhausted = s.txCnt.exhausted := rfl
@[simp] theorem takeAck_txCnt_stale (s : State) : (takeAck s).txCnt.stale = s.txCnt.stale := rfl
@[simp] theorem takeAck_txCnt_timeout (s : State) : (takeAck s).txCnt.timeout = s.txCnt.timeout := rfl
@[simp] theorem takeAck_rxCnt (s : State) : (takeAck s).rxCnt = s.rxCnt := rfl
@[simp] theorem takeAck_env (s : State) : (takeAck s).env = s.env := rfl
@[simp] theorem takeAck_out (s : State) : (takeAck s).out = s.out := rfl

/-! ## The next packet: `advance` -/

@[simp] theorem advance_cfg (s : State) : (advance s).cfg = s.cfg := rfl
@[simp] theorem advance_run (s : State) : (advance s).run = s.run := rfl
@[simp] theorem advance_cfgErr (s : State) : (advance s).cfgErr = s.cfgErr := rfl
@[simp] theorem advance_tx_state (s : State) : (advance s).tx.state = .idle := rfl
@[simp] theorem advance_tx_seq (s : State) : (advance s).tx.seq = s.tx.seq + 1 := rfl
@[simp] theorem advance_tx_attempts (s : State) : (advance s).tx.attempts = 0 := rfl
@[simp] theorem advance_tx_outstanding (s : State) : (advance s).tx.outstanding = s.tx.outstanding := rfl
@[simp] theorem advance_tx_deadline (s : State) : (advance s).tx.deadline = s.tx.deadline := rfl
@[simp] theorem advance_tx_pay (s : State) : (advance s).tx.pay = s.tx.pay := rfl
@[simp] theorem advance_tx_seqOvf (s : State) :
    (advance s).tx.seqOvf = (s.tx.seqOvf || decide (s.tx.seq = 0xFFFF)) := rfl
@[simp] theorem advance_tx_time (s : State) : (advance s).tx.time = s.tx.time := rfl
@[simp] theorem advance_rx (s : State) : (advance s).rx = s.rx := rfl
@[simp] theorem advance_cb (s : State) : (advance s).cb = s.cb := rfl
@[simp] theorem advance_txCnt (s : State) : (advance s).txCnt = s.txCnt := rfl
@[simp] theorem advance_rxCnt (s : State) : (advance s).rxCnt = s.rxCnt := rfl
@[simp] theorem advance_env (s : State) : (advance s).env = s.env := rfl
@[simp] theorem advance_out_rsp (s : State) : (advance s).out.rsp = s.out.rsp := rfl
@[simp] theorem advance_out_frmOut (s : State) : (advance s).out.frmOut = s.out.frmOut := rfl
@[simp] theorem advance_out_ctlOut (s : State) : (advance s).out.ctlOut = s.out.ctlOut := rfl
@[simp] theorem advance_out_txOut (s : State) : (advance s).out.txOut = s.out.txOut ++ [outcomeWord s] := rfl
@[simp] theorem advance_out_rxOut (s : State) : (advance s).out.rxOut = s.out.rxOut := rfl

/-! ## A frame lost: `loseFrame` -/

@[simp] theorem loseFrame_cfg (s : State) : (loseFrame s).cfg = s.cfg := rfl
@[simp] theorem loseFrame_run (s : State) : (loseFrame s).run = s.run := rfl
@[simp] theorem loseFrame_cfgErr (s : State) : (loseFrame s).cfgErr = s.cfgErr := rfl
@[simp] theorem loseFrame_tx (s : State) : (loseFrame s).tx = s.tx := rfl
@[simp] theorem loseFrame_rx_state (s : State) : (loseFrame s).rx.state = s.rx.state := rfl
@[simp] theorem loseFrame_rx_frm (s : State) : (loseFrame s).rx.frm = s.rx.frm := rfl
@[simp] theorem loseFrame_rx_len (s : State) : (loseFrame s).rx.len = s.rx.len := rfl
@[simp] theorem loseFrame_rx_seq (s : State) : (loseFrame s).rx.seq = s.rx.seq := rfl
@[simp] theorem loseFrame_rx_res (s : State) : (loseFrame s).rx.res = s.rx.res := rfl
@[simp] theorem loseFrame_rx_cor (s : State) : (loseFrame s).rx.cor = s.rx.cor := rfl
@[simp] theorem loseFrame_rx_lastErr (s : State) : (loseFrame s).rx.lastErr = .channelLoss := rfl
@[simp] theorem loseFrame_cb (s : State) : (loseFrame s).cb = s.cb := rfl
@[simp] theorem loseFrame_txCnt (s : State) : (loseFrame s).txCnt = s.txCnt := rfl
@[simp] theorem loseFrame_rxCnt_lost (s : State) : (loseFrame s).rxCnt.lost = s.rxCnt.lost + 1 := rfl
@[simp] theorem loseFrame_rxCnt_rxframes (s : State) : (loseFrame s).rxCnt.rxframes = s.rxCnt.rxframes := rfl
@[simp] theorem loseFrame_rxCnt_valid (s : State) : (loseFrame s).rxCnt.valid = s.rxCnt.valid := rfl
@[simp] theorem loseFrame_rxCnt_crcfail (s : State) : (loseFrame s).rxCnt.crcfail = s.rxCnt.crcfail := rfl
@[simp] theorem loseFrame_rxCnt_synfail (s : State) : (loseFrame s).rxCnt.synfail = s.rxCnt.synfail := rfl
@[simp] theorem loseFrame_rxCnt_malformed (s : State) : (loseFrame s).rxCnt.malformed = s.rxCnt.malformed := rfl
@[simp] theorem loseFrame_rxCnt_corrected (s : State) : (loseFrame s).rxCnt.corrected = s.rxCnt.corrected := rfl
@[simp] theorem loseFrame_env (s : State) : (loseFrame s).env = s.env := rfl
@[simp] theorem loseFrame_out (s : State) : (loseFrame s).out = s.out := rfl

/-! ## Other turns: `withTurns` -/

@[simp] theorem withTurns_cfg (ts : List Turn) (s : State) : (withTurns ts s).cfg = s.cfg := rfl
@[simp] theorem withTurns_run (ts : List Turn) (s : State) : (withTurns ts s).run = s.run := rfl
@[simp] theorem withTurns_cfgErr (ts : List Turn) (s : State) : (withTurns ts s).cfgErr = s.cfgErr := rfl
@[simp] theorem withTurns_tx (ts : List Turn) (s : State) : (withTurns ts s).tx = s.tx := rfl
@[simp] theorem withTurns_rx (ts : List Turn) (s : State) : (withTurns ts s).rx = s.rx := rfl
@[simp] theorem withTurns_cb (ts : List Turn) (s : State) : (withTurns ts s).cb = s.cb := rfl
@[simp] theorem withTurns_txCnt (ts : List Turn) (s : State) : (withTurns ts s).txCnt = s.txCnt := rfl
@[simp] theorem withTurns_rxCnt (ts : List Turn) (s : State) : (withTurns ts s).rxCnt = s.rxCnt := rfl
@[simp] theorem withTurns_env_cmdIn (ts : List Turn) (s : State) : (withTurns ts s).env.cmdIn = s.env.cmdIn := rfl
@[simp] theorem withTurns_env_chan (ts : List Turn) (s : State) : (withTurns ts s).env.chan = s.env.chan := rfl
@[simp] theorem withTurns_env_ctlPath (ts : List Turn) (s : State) :
    (withTurns ts s).env.ctlPath = s.env.ctlPath := rfl
@[simp] theorem withTurns_env_ctlReady (ts : List Turn) (s : State) :
    (withTurns ts s).env.ctlReady = s.env.ctlReady := rfl
@[simp] theorem withTurns_env_turns (ts : List Turn) (s : State) : (withTurns ts s).env.turns = ts := rfl
@[simp] theorem withTurns_out (ts : List Turn) (s : State) : (withTurns ts s).out = s.out := rfl

/-! ## Other bits on `CMD`: `withCmdIn` -/

@[simp] theorem withCmdIn_cfg (bs : Bits) (s : State) : (withCmdIn bs s).cfg = s.cfg := rfl
@[simp] theorem withCmdIn_run (bs : Bits) (s : State) : (withCmdIn bs s).run = s.run := rfl
@[simp] theorem withCmdIn_cfgErr (bs : Bits) (s : State) : (withCmdIn bs s).cfgErr = s.cfgErr := rfl
@[simp] theorem withCmdIn_tx (bs : Bits) (s : State) : (withCmdIn bs s).tx = s.tx := rfl
@[simp] theorem withCmdIn_rx (bs : Bits) (s : State) : (withCmdIn bs s).rx = s.rx := rfl
@[simp] theorem withCmdIn_cb (bs : Bits) (s : State) : (withCmdIn bs s).cb = s.cb := rfl
@[simp] theorem withCmdIn_txCnt (bs : Bits) (s : State) : (withCmdIn bs s).txCnt = s.txCnt := rfl
@[simp] theorem withCmdIn_rxCnt (bs : Bits) (s : State) : (withCmdIn bs s).rxCnt = s.rxCnt := rfl
@[simp] theorem withCmdIn_env_cmdIn (bs : Bits) (s : State) : (withCmdIn bs s).env.cmdIn = bs := rfl
@[simp] theorem withCmdIn_env_chan (bs : Bits) (s : State) : (withCmdIn bs s).env.chan = s.env.chan := rfl
@[simp] theorem withCmdIn_env_ctlPath (bs : Bits) (s : State) : (withCmdIn bs s).env.ctlPath = s.env.ctlPath := rfl
@[simp] theorem withCmdIn_env_ctlReady (bs : Bits) (s : State) : (withCmdIn bs s).env.ctlReady = s.env.ctlReady := rfl
@[simp] theorem withCmdIn_env_turns (bs : Bits) (s : State) : (withCmdIn bs s).env.turns = s.env.turns := rfl
@[simp] theorem withCmdIn_out (bs : Bits) (s : State) : (withCmdIn bs s).out = s.out := rfl

/-! ## Another channel queue: `withChan` -/

@[simp] theorem withChan_cfg (fs : List Frame) (s : State) : (withChan fs s).cfg = s.cfg := rfl
@[simp] theorem withChan_run (fs : List Frame) (s : State) : (withChan fs s).run = s.run := rfl
@[simp] theorem withChan_cfgErr (fs : List Frame) (s : State) : (withChan fs s).cfgErr = s.cfgErr := rfl
@[simp] theorem withChan_tx (fs : List Frame) (s : State) : (withChan fs s).tx = s.tx := rfl
@[simp] theorem withChan_rx (fs : List Frame) (s : State) : (withChan fs s).rx = s.rx := rfl
@[simp] theorem withChan_cb (fs : List Frame) (s : State) : (withChan fs s).cb = s.cb := rfl
@[simp] theorem withChan_txCnt (fs : List Frame) (s : State) : (withChan fs s).txCnt = s.txCnt := rfl
@[simp] theorem withChan_rxCnt (fs : List Frame) (s : State) : (withChan fs s).rxCnt = s.rxCnt := rfl
@[simp] theorem withChan_env_cmdIn (fs : List Frame) (s : State) : (withChan fs s).env.cmdIn = s.env.cmdIn := rfl
@[simp] theorem withChan_env_chan (fs : List Frame) (s : State) : (withChan fs s).env.chan = fs := rfl
@[simp] theorem withChan_env_ctlPath (fs : List Frame) (s : State) :
    (withChan fs s).env.ctlPath = s.env.ctlPath := rfl
@[simp] theorem withChan_env_ctlReady (fs : List Frame) (s : State) :
    (withChan fs s).env.ctlReady = s.env.ctlReady := rfl
@[simp] theorem withChan_env_turns (fs : List Frame) (s : State) : (withChan fs s).env.turns = s.env.turns := rfl
@[simp] theorem withChan_out (fs : List Frame) (s : State) : (withChan fs s).out = s.out := rfl

/-! ## Another control-path queue: `withCtlPath` -/

@[simp] theorem withCtlPath_cfg (ws : List (BitVec 17)) (s : State) : (withCtlPath ws s).cfg = s.cfg := rfl
@[simp] theorem withCtlPath_run (ws : List (BitVec 17)) (s : State) : (withCtlPath ws s).run = s.run := rfl
@[simp] theorem withCtlPath_cfgErr (ws : List (BitVec 17)) (s : State) : (withCtlPath ws s).cfgErr = s.cfgErr := rfl
@[simp] theorem withCtlPath_tx (ws : List (BitVec 17)) (s : State) : (withCtlPath ws s).tx = s.tx := rfl
@[simp] theorem withCtlPath_rx (ws : List (BitVec 17)) (s : State) : (withCtlPath ws s).rx = s.rx := rfl
@[simp] theorem withCtlPath_cb (ws : List (BitVec 17)) (s : State) : (withCtlPath ws s).cb = s.cb := rfl
@[simp] theorem withCtlPath_txCnt (ws : List (BitVec 17)) (s : State) : (withCtlPath ws s).txCnt = s.txCnt := rfl
@[simp] theorem withCtlPath_rxCnt (ws : List (BitVec 17)) (s : State) : (withCtlPath ws s).rxCnt = s.rxCnt := rfl
@[simp] theorem withCtlPath_env_cmdIn (ws : List (BitVec 17)) (s : State) :
    (withCtlPath ws s).env.cmdIn = s.env.cmdIn := rfl
@[simp] theorem withCtlPath_env_chan (ws : List (BitVec 17)) (s : State) :
    (withCtlPath ws s).env.chan = s.env.chan := rfl
@[simp] theorem withCtlPath_env_ctlPath (ws : List (BitVec 17)) (s : State) :
    (withCtlPath ws s).env.ctlPath = ws := rfl
@[simp] theorem withCtlPath_env_ctlReady (ws : List (BitVec 17)) (s : State) :
    (withCtlPath ws s).env.ctlReady = false := rfl
@[simp] theorem withCtlPath_env_turns (ws : List (BitVec 17)) (s : State) :
    (withCtlPath ws s).env.turns = s.env.turns := rfl
@[simp] theorem withCtlPath_out (ws : List (BitVec 17)) (s : State) : (withCtlPath ws s).out = s.out := rfl

end Sys2Proof.Machine
end

