-- ==== Sys2Proof/Laws/Words.lean ====
section
/-! SUPPORT. Lemmas about packing and unpacking (R9) and about the heads of the formats (R91 to R96). -/

namespace Sys2Proof

/-- A word of `w` bits has `w` bits. -/
theorem length_wordBits (w v : Nat) : (wordBits w v).length = w := by simp [wordBits]

/-- `0^n` has `n` bits. -/
theorem length_zeros (n : Nat) : (zeros n).length = n := by simp [zeros]

/-- Packing is positional (R9). -/
theorem bitsVal_append_singleton (s : Bits) (b : Bool) : bitsVal (s ++ [b]) = 2 * bitsVal s + b.toNat := by
  simp [bitsVal]

/-- A packed value fits its length. -/
theorem bitsVal_lt (s : Bits) : bitsVal s < 2 ^ s.length := by
  induction s using List.reverseRecOn with
  | nil => simp [bitsVal]
  | append_singleton s b ih =>
    rw [bitsVal_append_singleton, List.length_append, List.length_singleton, pow_succ]
    cases b <;> simp <;> omega

/-- The last bit of a word is its bit 0. -/
theorem wordBits_succ (w v : Nat) : wordBits (w + 1) v = wordBits w (v / 2) ++ [v.testBit 0] := by
  simp only [wordBits, List.range_succ, List.map_append, List.map_singleton]
  congr 1
  · apply List.map_congr_left
    intro i hi
    rw [List.mem_range] at hi
    rw [Nat.testBit_div_two]; congr 1; omega
  · simp

/-- Packing an unpacked word gives its low bits (R9). -/
theorem bitsVal_wordBits (w v : Nat) : bitsVal (wordBits w v) = v % 2 ^ w := by
  induction w generalizing v with
  | zero => simp [wordBits, bitsVal, Nat.mod_one]
  | succ w ih =>
    rw [wordBits_succ, bitsVal_append_singleton, ih, pow_succ, Nat.testBit_zero]
    rcases Nat.mod_two_eq_zero_or_one v with h | h <;> simp [h] <;> rw [Nat.mul_comm (2^w) 2, Nat.mod_mul] <;> omega

/-- Unpacking a packed sequence gives it back (R9). -/
theorem wordBits_bitsVal (s : Bits) : wordBits s.length (bitsVal s) = s := by
  induction s using List.reverseRecOn with
  | nil => rfl
  | append_singleton s b ih =>
    rw [List.length_append, List.length_singleton, wordBits_succ, bitsVal_append_singleton]
    cases b <;> simp [ih, Nat.mul_add_div]

/-- The first bits of a word are its high bits. -/
theorem wordBits_take (w v i : Nat) (h : i ≤ w) : (wordBits w v).take i = wordBits i (v / 2 ^ (w - i)) := by
  apply List.ext_getElem
  · simp [wordBits, h]
  · intro n h1 h2
    simp [wordBits]
    rw [← Nat.shiftRight_eq_div_pow, Nat.testBit_shiftRight]
    congr 1
    have h3 : n < i := by simp only [length_wordBits] at h2; exact h2
    omega

/-- The last bits of a word are its low bits. -/
theorem wordBits_drop (w v i : Nat) : (wordBits w v).drop i = wordBits (w - i) v := by
  apply List.ext_getElem
  · simp [wordBits]
  · intro n h1 h2
    simp [wordBits] at *
    congr 1; omega

/-- A field of a head, read from the wire, is that field of the word. -/
theorem headField_wordBits (W v : Nat) (rest : Bits) (i w : Nat) (h : i + w ≤ W) :
    headField (wordBits W v ++ rest) i w = v / 2 ^ (W - i - w) % 2 ^ w := by
  unfold headField
  rw [List.drop_append_of_le_length (by simp [length_wordBits]; omega),
    List.take_append_of_le_length (by simp [length_wordBits]; omega), wordBits_drop,
    wordBits_take _ _ _ (by omega), bitsVal_wordBits]

/-- What the decoder of format `CMD` answers on a header and the payload its `len` asks for. -/
theorem decodeCmd_header (op : Nat) (aux : BitVec 8) (p rest : Bits) (hop : op < 256) (hp : p.length < 65536) :
    decodeCmd (wordBits 32 (op * 2 ^ 24 + aux.toNat * 2 ^ 16 + p.length) ++ p ++ rest) =
      match commandOf (BitVec.ofNat 8 op) aux p with
      | some i => .ok (i, rest)
      | none => .error (.badOp (BitVec.ofNat 8 op) rest) := by
  have ha := aux.isLt
  have h0 : headField (wordBits 32 (op * 2 ^ 24 + aux.toNat * 2 ^ 16 + p.length) ++ (p ++ rest)) 0 8 = op := by
    rw [headField_wordBits _ _ _ _ _ (by omega)]; norm_num; omega
  have h1 : headField (wordBits 32 (op * 2 ^ 24 + aux.toNat * 2 ^ 16 + p.length) ++ (p ++ rest)) 8 8 = aux.toNat := by
    rw [headField_wordBits _ _ _ _ _ (by omega)]; norm_num; omega
  have h2 : headField (wordBits 32 (op * 2 ^ 24 + aux.toNat * 2 ^ 16 + p.length) ++ (p ++ rest)) 16 16 = p.length := by
    rw [headField_wordBits _ _ _ _ _ (by omega)]; norm_num; omega
  have hd : (wordBits 32 (op * 2 ^ 24 + aux.toNat * 2 ^ 16 + p.length) ++ (p ++ rest)).drop 32 = p ++ rest :=
    List.drop_left' (length_wordBits _ _)
  rw [List.append_assoc]
  unfold decodeCmd
  simp only [h0, h1, h2, hd, List.take_left, List.drop_left, BitVec.ofNat_toNat, BitVec.setWidth_eq]
  refine (if_neg (by simp [length_wordBits])).trans ?_
  cases commandOf (BitVec.ofNat 8 op) aux p <;> rfl

/-- What the decoder of format `FRM` answers on a head and the bits its `flen` asks for (R96). -/
theorem decodeFrm_head (seq : SeqNum) (flen : BitVec 8) (bits rest : Bits) (h : bits.length = flen.toNat) :
    decodeFrm (wordBits 24 (seq.toNat * 2 ^ 8 + flen.toNat) ++ bits ++ rest) = .ok (.frmIn seq flen bits, rest) := by
  have ha := seq.isLt
  have hb := flen.isLt
  have h0 : headField (wordBits 24 (seq.toNat * 2 ^ 8 + flen.toNat) ++ (bits ++ rest)) 0 16 = seq.toNat := by
    rw [headField_wordBits _ _ _ _ _ (by omega)]; norm_num; omega
  have h1 : headField (wordBits 24 (seq.toNat * 2 ^ 8 + flen.toNat) ++ (bits ++ rest)) 16 8 = bits.length := by
    rw [headField_wordBits _ _ _ _ _ (by omega)]; norm_num; omega
  have hd : (wordBits 24 (seq.toNat * 2 ^ 8 + flen.toNat) ++ (bits ++ rest)).drop 24 = bits ++ rest :=
    List.drop_left' (length_wordBits _ _)
  rw [List.append_assoc]
  unfold decodeFrm
  simp only [h0, h1, hd, List.take_left, List.drop_left, BitVec.ofNat_toNat, BitVec.setWidth_eq]
  rw [if_neg (by simp [length_wordBits]), h]
  simp

/-- The first bit of a control word is its bit 16 (R95). -/
theorem wordBits_17_cons (v : Nat) (rest : Bits) :
    wordBits 17 v ++ rest = v.testBit 16 :: (wordBits 16 v ++ rest) := by
  simp [wordBits, List.range_succ]

/-- What the decoder of format `CTL` answers on a word of 17 bits (R95). -/
theorem decodeCtl_word (v : Nat) (rest : Bits) :
    decodeCtl (wordBits 17 v ++ rest) =
      .ok (if v.testBit 16 then .ctlAck (BitVec.ofNat 16 v) else .ctlNack (BitVec.ofNat 16 v), rest) := by
  have h0 : headField (wordBits 17 v ++ rest) 1 16 = v % 2 ^ 16 := by
    rw [headField_wordBits _ _ _ _ _ (by omega)]; simp
  have hd : (wordBits 17 v ++ rest).drop 17 = rest := List.drop_left' (length_wordBits _ _)
  rw [wordBits_17_cons] at h0 hd ⊢
  simp only [decodeCtl, h0, hd]
  refine (if_neg (by simp [length_wordBits])).trans ?_
  have h1 : BitVec.ofNat 16 (v % 2 ^ 16) = BitVec.ofNat 16 v := by
    apply BitVec.eq_of_toNat_eq; simp
  simp only [h1]

end Sys2Proof
end

