-- ==== Sys2Proof/Laws/Ops.lean ====
section
/-! SUPPORT. One lemma per shared operation that says once everything it can do, in the words of Safety.lean, for later
proofs to cite instead of unfolding it. -/

namespace Sys2Proof.Machine

/-! ## Words -/

/-- The two spellings of `w` bits of a value agree (R9). -/
theorem msbFirst_eq_wordBits (w v : Nat) : msbFirst w v = wordBits w v := by
  unfold msbFirst wordBits
  apply List.map_congr_left
  intro i _
  rw [Nat.testBit_eq_decide_div_mod_eq]

/-- The sum of R94 is packing (R9). -/
theorem seqValue_eq_bitsVal (p : Bits) : seqValue p = bitsVal p := by
  induction p using List.reverseRecOn with
  | nil => rfl
  | append_singleton s b ih =>
    rw [bitsVal_append_singleton, ← ih]
    simp only [seqValue, List.length_append, List.length_singleton, List.range_succ, List.map_append,
      List.sum_append, List.map_singleton, List.sum_singleton]
    congr 1
    · rw [← List.sum_map_mul_left]
      congr 1
      apply List.map_congr_left
      intro i hi
      rw [List.mem_range] at hi
      rw [List.getD_append _ _ _ _ hi]
      split
      · rw [← pow_succ']; congr 1; omega
      · rfl
    · rw [List.getD_append_right _ _ _ _ (Nat.le_refl _)]
      cases b <;> simp

/-- R93: the fields of a response word are at their places. -/
theorem rspWord_word (st : Cond) (flag : Bool) (data : Bits) (h : data.length < 2 ^ 24) :
    (rspWord st flag data).word =
      BitVec.ofNat 32 ((condCode st).toNat * 2 ^ 28 + flag.toNat * 2 ^ 24 + data.length) := by
  apply BitVec.eq_of_toNat_eq
  have hc := (condCode st).isLt
  have hf : flag.toNat < 2 := Bool.toNat_lt flag
  simp only [rspWord, BitVec.toNat_append, BitVec.toNat_ofNat, BitVec.toNat_ofBool, Nat.mod_eq_of_lt h]
  rw [← Nat.shiftLeft_add_eq_or_of_lt (by omega), ← Nat.shiftLeft_add_eq_or_of_lt (by omega),
   ← Nat.shiftLeft_add_eq_or_of_lt (by omega)]
  simp only [Nat.shiftLeft_eq, BitVec.ofNat_eq_ofNat, BitVec.toNat_ofNat]
  omega

/-- R97: the fields of an outcome word are at their places. -/
theorem txoWord_eq (code : Cond) (retx : BitVec 8) (seq : SeqNum) :
    txoWord code retx seq = txoValue (condCode code).toNat retx.toNat seq.toNat := by
  apply BitVec.eq_of_toNat_eq
  have hc := (condCode code).isLt
  have hr := retx.isLt
  have hs := seq.isLt
  simp only [txoWord, txoValue, BitVec.toNat_append, BitVec.toNat_ofNat]
  rw [← Nat.shiftLeft_add_eq_or_of_lt (by omega), ← Nat.shiftLeft_add_eq_or_of_lt (by omega),
   ← Nat.shiftLeft_add_eq_or_of_lt (by omega)]
  simp only [Nat.shiftLeft_eq, BitVec.ofNat_eq_ofNat, BitVec.toNat_ofNat]
  omega

/-- R98: the fields of a result word are at their places. -/
theorem rxoWord_eq (code : Cond) (cor : Bool) (seq : SeqNum) (data : Bits) :
    rxoWord code cor seq data = rxoValue (condCode code).toNat cor.toNat seq.toNat data := by
  have hc := (condCode code).isLt
  have hr : cor.toNat < 2 := Bool.toNat_lt cor
  have hs := seq.isLt
  unfold rxoWord rxoValue
  congr 1
  apply BitVec.eq_of_toNat_eq
  simp only [BitVec.toNat_append, BitVec.toNat_ofNat, BitVec.toNat_ofBool]
  rw [← Nat.shiftLeft_add_eq_or_of_lt (by omega), ← Nat.shiftLeft_add_eq_or_of_lt (by omega),
   ← Nat.shiftLeft_add_eq_or_of_lt (by omega), ← Nat.shiftLeft_add_eq_or_of_lt (by omega)]
  simp only [Nat.shiftLeft_eq, BitVec.ofNat_eq_ofNat, BitVec.toNat_ofNat]
  omega

/-- R95: the value of a control word. -/
theorem ctlWord_eq (kind : Bool) (seq : SeqNum) : ctlWord kind seq = ctlValue kind.toNat seq.toNat := by
  have hr : kind.toNat < 2 := Bool.toNat_lt kind
  have hs := seq.isLt
  apply BitVec.eq_of_toNat_eq
  simp only [ctlWord, ctlValue, BitVec.toNat_append, BitVec.toNat_ofNat, BitVec.toNat_ofBool]
  rw [← Nat.shiftLeft_add_eq_or_of_lt (by omega)]
  simp only [Nat.shiftLeft_eq]
  omega

/-- R95: the value of a control word as a number. -/
theorem ctlWord_toNat (kind : Bool) (seq : SeqNum) :
    (ctlWord kind seq).toNat = kind.toNat * 0x10000 + seq.toNat := by
  have hr : kind.toNat < 2 := Bool.toNat_lt kind
  have hs := seq.isLt
  rw [ctlWord_eq, ctlValue, BitVec.toNat_ofNat]
  omega

/-- R96: the value of a frame head. -/
theorem frmHead_toNat (seq : SeqNum) (flen : BitVec 8) :
    (frmHead seq flen).toNat = seq.toNat * 2 ^ 8 + flen.toNat := by
  have hs := flen.isLt
  simp only [frmHead, BitVec.toNat_append]
  rw [← Nat.shiftLeft_add_eq_or_of_lt (by omega)]
  simp only [Nat.shiftLeft_eq]

/-! ## Commands -/

/-- `respond` appends one response and changes nothing else (R93). -/
theorem respond_eq_answered (st : Cond) (flag : Bool) (data : Bits) (s : State) (h : data.length < 2 ^ 24) :
    respond st flag data s = answered s (condCode st).toNat flag.toNat data := by
  have := rspWord_word st flag data h
  unfold respond answered
  rw [← this]
  rfl

/-- `refuse` appends one response without flag and data and changes nothing else (R93). -/
theorem refuse_eq_answered (st : Cond) (s : State) : refuse st s = answered s (condCode st).toNat 0 [] := by
  unfold refuse
  rw [respond_eq_answered _ _ _ _ (by simp)]
  rfl

/-- All that `runCommand` can do: every check holds and it is done, or the first failing check refuses (R103). -/
theorem runCommand_cases {cs : List (Bool × Cond)} {d s t : State} (h : runCommand cs d s = .next t) :
    (t = d ∧ ∀ c ∈ cs, c.1 = true) ∨ ∃ c ∈ cs, c.1 = false ∧ t = answered s (condCode c.2).toNat 0 [] := by
  unfold runCommand at h
  split at h
  · rename_i c hc
    cases h
    have hf := List.find?_some hc
    exact .inr ⟨c, List.mem_of_find?_eq_some hc, by simpa using hf, refuse_eq_answered _ _⟩
  · rename_i hc
    rw [List.find?_eq_none] at hc
    cases h
    exact .inl ⟨rfl, by simpa using hc⟩

/-- A command always answers a next state. -/
theorem runCommand_next (cs : List (Bool × Cond)) (d s : State) : ∃ t, runCommand cs d s = .next t := by
  unfold runCommand
  split <;> exact ⟨_, rfl⟩

/-- The decoder on the wire of a command, by the opcode alone (R91, R101). -/
theorem decode_cmdWire (op : Nat) (aux : BitVec 8) (p rest : Bits) (hop : op < 256) (hp : p.length < 65536) :
    decode .cmd (cmdWire op aux p ++ rest) =
      match commandOf (BitVec.ofNat 8 op) aux p with
      | some i => .ok (i, rest)
      | none => .error (.badOp (BitVec.ofNat 8 op) rest) := decodeCmd_header op aux p rest hop hp

/-! ## The buffer, the sender, the receiver -/

/-- `cb_clear()` (R201). -/
theorem cbClear_eq (s : State) : cbClear s = withEmptyBuffer s := rfl

/-- Commit (R203); `CB_CNT` saturates at 255. -/
theorem cbCommit_eq (acc' : List AccCell) (s : State) : cbCommit acc' s = withCommitted (frameW s.cfg) acc' s := by
  unfold cbCommit withCommitted commitCells
  have : (if s.cb.cnt = 255 then 255 else s.cb.cnt + 1) = BitVec.ofNat 8 (min (s.cb.cnt.toNat + 1) 255) := by
    have := s.cb.cnt.isLt
    split
    · rename_i h; rw [h]; rfl
    · rename_i h
      have h' : s.cb.cnt.toNat ≠ 255 := fun e => h (BitVec.eq_of_toNat_eq e)
      apply BitVec.eq_of_toNat_eq
      simp only [BitVec.toNat_add, BitVec.toNat_ofNat]
      rw [Nat.min_eq_left (by omega)]
      simp
  rw [this]
  rfl

/-- `tx_fail()` (R227). -/
theorem txFail_eq (s : State) : txFail s = withFailure s := by
  unfold txFail withFailure
  simp only

/-- What `tx_fail()` leaves: all but the sender and `CNT_EXHAUSTED`. -/
theorem txFail_frame (s : State) :
    (txFail s).cfg = s.cfg ∧ (txFail s).run = s.run ∧ (txFail s).cfgErr = s.cfgErr ∧ (txFail s).rx = s.rx ∧
      (txFail s).cb = s.cb ∧ (txFail s).rxCnt = s.rxCnt ∧ (txFail s).env = s.env ∧ (txFail s).out = s.out := by
  unfold txFail
  dsimp only
  split <;> simp

/-- `tx_fail()` ends in `Retrying` or `Exhausted`. -/
theorem txFail_state (s : State) : (txFail s).tx.state = .retrying ∨ (txFail s).tx.state = .exhausted := by
  unfold txFail
  dsimp only
  split <;> simp

/-- What a frame's tag does to the buffer (R251): nothing, or it is cleared under the new tag; nothing else changes. -/
theorem cbRetag_cases (seq : SeqNum) (s : State) :
    (seq = s.cb.seq ∧ cbRetag seq s = s) ∨
      (seq ≠ s.cb.seq ∧
        cbRetag seq s = { s with cb := { acc := List.replicate Config.cbCells 0, empty := true, seq := seq, cnt := 0 } }) := by
  unfold cbRetag
  split
  · exact .inl ⟨‹_›, rfl⟩
  · exact .inr ⟨‹_›, rfl⟩

/-- The four results of `rx_process` (R255), two of which never correct. -/
theorem rxProcess_code (c : Cfg) (f : Bits) (acc : List AccCell) :
    (rxProcess c f acc).code = .ok ∨
      ((rxProcess c f acc).code = .malformedFrame ∧ (rxProcess c f acc).cor = false) ∨
      ((rxProcess c f acc).code = .invalidSyndrome ∧ (rxProcess c f acc).cor = false) ∨
      (rxProcess c f acc).code = .crcMismatch := by
  unfold rxProcess
  dsimp only
  split
  · split
    · simp
    · split <;> simp
  · simp

/-! ## Fetching -/

/-- All that fetching from a port can do: run what the decoder reads there if its port accepts, or leave it there. -/
theorem fetchPort_cases (p : Port) (wire : Bits) (taken s : State) :
    (∃ i rest, decode p wire = .ok (i, rest) ∧ ready i s = true ∧ fetchPort p wire taken s = .run i taken) ∨
      fetchPort p wire taken s = .quiet s := by
  unfold fetchPort
  split
  · rename_i i rest hd
    split
    · exact .inl ⟨i, rest, hd, ‹_›, rfl⟩
    · exact .inr rfl
  · exact .inr rfl

/-- A fetch changes nothing but the link: what it hands over differs from the state in `env` alone. -/
theorem fetchTurn_env (t : Turn) (s : State) :
    (∃ i e, fetchTurn t s = .run i { s with env := e }) ∨ (∃ e, fetchTurn t s = .illegal { s with env := e }) ∨
      ∃ e, fetchTurn t s = .quiet { s with env := e } := by
  have port : ∀ (p : Port) (wire : Bits) (e : Env),
      (∃ i e', fetchPort p wire { s with env := e } s = .run i { s with env := e' }) ∨
        (∃ e', fetchPort p wire { s with env := e } s = .illegal { s with env := e' }) ∨
        ∃ e', fetchPort p wire { s with env := e } s = .quiet { s with env := e' } := by
    intro p wire e
    rcases fetchPort_cases p wire { s with env := e } s with ⟨i, _, _, _, h⟩ | h
    · exact .inl ⟨i, e, h⟩
    · exact .inr (.inr ⟨s.env, h⟩)
  cases t
  case host =>
    unfold fetchTurn fetchCmd
    dsimp only
    split
    · exact .inl ⟨_, _, rfl⟩
    · exact .inr (.inl ⟨_, rfl⟩)
    · exact .inr (.inr ⟨s.env, rfl⟩)
  case channelDeliver mask =>
    unfold fetchTurn
    dsimp only
    split
    · exact .inr (.inr ⟨s.env, rfl⟩)
    · exact port _ _ _
  case channelLose =>
    unfold fetchTurn
    dsimp only
    split
    · exact .inr (.inr ⟨s.env, rfl⟩)
    · exact port _ _ _
  case controlDeliver =>
    unfold fetchTurn
    dsimp only
    split
    · exact .inr (.inr ⟨s.env, rfl⟩)
    · exact port _ _ _
  case clock => exact port .tick [true] s.env
  case platform => exact port .rst [true] s.env
  case sender =>
    unfold fetchTurn fetchInternal
    dsimp only
    split
    · exact .inl ⟨_, s.env, rfl⟩
    · exact .inr (.inr ⟨s.env, rfl⟩)
  case receiver =>
    unfold fetchTurn fetchInternal
    dsimp only
    split
    · exact .inl ⟨_, s.env, rfl⟩
    · exact .inr (.inr ⟨s.env, rfl⟩)
  all_goals exact .inr (.inr ⟨_, rfl⟩)

/-- The same of `fetch`. -/
theorem fetch_env (s : State) :
    (∃ i e, fetch s = .run i { s with env := e }) ∨ (∃ e, fetch s = .illegal { s with env := e }) ∨
      ∃ e, fetch s = .quiet { s with env := e } := by
  unfold fetch
  split
  · exact fetchTurn_env _ s
  · rename_i t ts _
    split
    · exact fetchTurn_env _ s
    · exact fetchTurn_env t (withTurns ts s)

end Sys2Proof.Machine
end

