-- ==== Sys2Proof/Laws/PerInstr.lean ====
section
/-! SUPPORT. A statement about every operation as syntax, one lemma per constructor. -/

namespace Sys2Proof.Laws.WireForm

/-- The length of what an operation's format carries: head and tail (R91, R92, R95, R96), a strobe (R99), or nothing
(R90: an internal step is presented on no port). -/
def wireLength : Instr → Nat
  | .nop _ p | .reset _ p | .cfgWr _ p | .cfgRd _ p | .sessionStart _ p | .sessionEnd _ p => 32 + p.length
  | .crcRem _ p | .crcAppend _ p | .crcCheck _ p | .hamEnc _ p | .hamDec _ p => 32 + p.length
  | .ilv _ p | .dilv _ p | .cbCombine _ p | .cbClear _ p | .cbRead _ p | .pktPush _ p => 32 + p.length
  | .frmIn _ _ bits => 24 + bits.length
  | .ctlAck _ | .ctlNack _ => 17
  | .frmLost | .tick | .rst => 1
  | .txSend | .txAdvance | .rxDecode | .rxRespond => 0

/-- An operation has an encoding exactly when a port presents it, and then the encoding is as long as its format. -/
def Statement (i : Instr) : Prop :=
  (encode i).length = wireLength i ∧ ((portOf i).isSome = true ↔ encode i ≠ [])

theorem command (op aux : BitVec 8) (p : Bits) :
    (encodeCmd op aux p).length = 32 + p.length ∧ ((some Port.cmd).isSome = true ↔ encodeCmd op aux p ≠ []) := by
  have h : (encodeCmd op aux p).length = 32 + p.length := by simp [encodeCmd, length_wordBits]
  refine ⟨h, fun _ e => ?_, fun _ => rfl⟩
  rw [e] at h
  simp only [List.length_nil] at h
  omega

theorem word (w v : Nat) (rest : Bits) (p : Port) (hw : 0 < w) :
    (wordBits w v ++ rest).length = w + rest.length ∧ ((some p).isSome = true ↔ wordBits w v ++ rest ≠ []) := by
  have h : (wordBits w v ++ rest).length = w + rest.length := by simp [length_wordBits]
  refine ⟨h, fun _ e => ?_, fun _ => rfl⟩
  rw [e] at h
  simp only [List.length_nil] at h
  omega

theorem nop (aux : BitVec 8) (p : Bits) : Statement (.nop aux p) := command _ aux p

theorem reset (aux : BitVec 8) (p : Bits) : Statement (.reset aux p) := command _ aux p

theorem cfgWr (aux : BitVec 8) (p : Bits) : Statement (.cfgWr aux p) := command _ aux p

theorem cfgRd (aux : BitVec 8) (p : Bits) : Statement (.cfgRd aux p) := command _ aux p

theorem sessionStart (aux : BitVec 8) (p : Bits) : Statement (.sessionStart aux p) := command _ aux p

theorem sessionEnd (aux : BitVec 8) (p : Bits) : Statement (.sessionEnd aux p) := command _ aux p

theorem crcRem (aux : BitVec 8) (p : Bits) : Statement (.crcRem aux p) := command _ aux p

theorem crcAppend (aux : BitVec 8) (p : Bits) : Statement (.crcAppend aux p) := command _ aux p

theorem crcCheck (aux : BitVec 8) (p : Bits) : Statement (.crcCheck aux p) := command _ aux p

theorem hamEnc (aux : BitVec 8) (p : Bits) : Statement (.hamEnc aux p) := command _ aux p

theorem hamDec (aux : BitVec 8) (p : Bits) : Statement (.hamDec aux p) := command _ aux p

theorem ilv (aux : BitVec 8) (p : Bits) : Statement (.ilv aux p) := command _ aux p

theorem dilv (aux : BitVec 8) (p : Bits) : Statement (.dilv aux p) := command _ aux p

theorem cbCombine (aux : BitVec 8) (p : Bits) : Statement (.cbCombine aux p) := command _ aux p

theorem cbClear (aux : BitVec 8) (p : Bits) : Statement (.cbClear aux p) := command _ aux p

theorem cbRead (aux : BitVec 8) (p : Bits) : Statement (.cbRead aux p) := command _ aux p

theorem pktPush (aux : BitVec 8) (p : Bits) : Statement (.pktPush aux p) := command _ aux p

theorem frmIn (seq : SeqNum) (flen : BitVec 8) (bits : Bits) : Statement (.frmIn seq flen bits) :=
  word 24 _ bits .frmIn (by decide)

theorem frmLost : Statement .frmLost := ⟨rfl, fun _ e => List.cons_ne_nil _ _ e, fun _ => rfl⟩

theorem ctlAck (seq : SeqNum) : Statement (.ctlAck seq) := by
  have h := word 17 (ctlWord true seq).toNat [] .ctlIn (by decide)
  rw [List.append_nil] at h
  exact h

theorem ctlNack (seq : SeqNum) : Statement (.ctlNack seq) := by
  have h := word 17 (ctlWord false seq).toNat [] .ctlIn (by decide)
  rw [List.append_nil] at h
  exact h

theorem tick : Statement .tick := ⟨rfl, fun _ e => List.cons_ne_nil _ _ e, fun _ => rfl⟩

theorem rst : Statement .rst := ⟨rfl, fun _ e => List.cons_ne_nil _ _ e, fun _ => rfl⟩

theorem txSend : Statement .txSend := ⟨rfl, fun h => absurd h Bool.false_ne_true, fun h => absurd rfl h⟩

theorem txAdvance : Statement .txAdvance := ⟨rfl, fun h => absurd h Bool.false_ne_true, fun h => absurd rfl h⟩

theorem rxDecode : Statement .rxDecode := ⟨rfl, fun h => absurd h Bool.false_ne_true, fun h => absurd rfl h⟩

theorem rxRespond : Statement .rxRespond := ⟨rfl, fun h => absurd h Bool.false_ne_true, fun h => absurd rfl h⟩

end Sys2Proof.Laws.WireForm
end

