-- ==== Sys2Proof/Tests/Slice0.lean ====
section
/-! SUPPORT. Tests of one step each, with the expected values of `spec/95_test_vectors.md` (a number such as 2.8 or T5
names its section or table), words written out bit by bit from the formats of 30_encoding.md, and a witness for the
hypotheses of every statement that has some. -/

namespace Sys2Proof.Tests

open Sys2Proof.Machine

/-- A bit sequence written with digits. -/
def bits (ds : List Nat) : Bits := ds.map fun d => d == 1

/-- A session in progress, both controllers at rest. -/
def session : State := { State.reset with run := true }

/-- The session with another sender. -/
def sender (st : TxState) (seq : SeqNum) (attempts : BitVec 8) (deadline time : Count) : State :=
  { session with
    tx :=
      { Tx.reset with
        state := st, seq := seq, attempts := attempts, outstanding := decide (st = .awaitingAck), deadline := deadline,
        time := time, pay := bits [1, 1, 0, 0] } }

/-- The session with a frame latched. -/
def latched (frm : Bits) : State :=
  { session with rx := { Rx.reset with state := .decoding, frm := frm, len := BitVec.ofNat 8 frm.length } }

/-- The state with a turn and link contents. -/
def linked (t : Turn) (cmd : Bits) (chan : List Frame) (ctl : List (BitVec 17)) (s : State) : State :=
  { s with env := { cmdIn := cmd, chan := chan, ctlPath := ctl, ctlReady := !ctl.isEmpty, turns := [t] } }

/-- The payload `1100`, its block `0111100` and its frame `0111100101` (section 2.4 of the vectors). -/
def p1100 : Bits := bits [1, 1, 0, 0]

/-- See `p1100`. -/
def b1100 : Bits := bits [0, 1, 1, 1, 1, 0, 0]

/-- See `p1100`. -/
def f1100 : Bits := bits [0, 1, 1, 1, 1, 0, 0, 1, 0, 1]

/-- The session with a buffer in use. -/
def withBuffer : State :=
  { session with cb := { Cb.reset with acc := List.replicate 87 1, empty := false, cnt := 1 } }

/-- The next state of an outcome. -/
def nextOf (r : Result) : State :=
  match r with
  | .next t => t
  | _ => State.reset

/-- The response words so far. -/
def words (s : State) : List (BitVec 32) := s.out.rsp.map fun r => r.word

/-- The data of the responses so far. -/
def data (s : State) : List Bits := s.out.rsp.map fun r => r.tail

/-! ## WellFormed: an ill-formed operation for each check -/

theorem test_payload_too_long_refused : wellFormed (.nop 0 (zeros 65536)) = false := by
  simp only [wellFormed, payloadFits, zeros, List.length_replicate]
  decide

theorem test_frame_longer_than_flen_refused : wellFormed (.frmIn 0 1 [true, false]) = false := by decide

theorem test_frame_shorter_than_flen_refused : wellFormed (.frmIn 0 3 [true, false]) = false := by decide

theorem test_frame_of_flen_accepted : wellFormed (.frmIn 0 2 [true, false]) = true := by decide

/-! ## Decoding: one word of every constructor that has one, written out from its format -/

theorem test_decode_nop :
    decode .cmd (bits [0, 0, 0, 0, 0, 0, 0, 0, 0, 0, 0, 0, 0, 0, 0, 0, 0, 0, 0, 0, 0, 0, 0, 0, 0, 0, 0, 0, 0, 0,
      0, 0]) = .ok (.nop 0x00 (bits []), []) := by
  decide

theorem test_decode_reset :
    decode .cmd (bits [0, 0, 0, 0, 0, 0, 0, 1, 0, 0, 0, 0, 0, 0, 0, 0, 0, 0, 0, 0, 0, 0, 0, 0, 0, 0, 0, 0, 0, 0,
      0, 0]) = .ok (.reset 0x00 (bits []), []) := by
  decide

theorem test_decode_cfgWr :
    decode .cmd (bits [0, 0, 0, 0, 0, 0, 1, 0, 0, 0, 0, 0, 0, 0, 0, 0, 0, 0, 0, 0, 0, 0, 0, 0, 0, 0, 0, 0, 0, 1,
      0, 1, 1, 0, 0, 1, 1]) = .ok (.cfgWr 0x00 (bits [1, 0, 0, 1, 1]), []) := by
  decide

theorem test_decode_cfgRd :
    decode .cmd (bits [0, 0, 0, 0, 0, 0, 1, 1, 0, 0, 0, 1, 0, 1, 1, 0, 0, 0, 0, 0, 0, 0, 0, 0, 0, 0, 0, 0, 0, 0,
      0, 0]) = .ok (.cfgRd 0x16 (bits []), []) := by
  decide

theorem test_decode_sessionStart :
    decode .cmd (bits [0, 0, 0, 0, 0, 1, 0, 0, 0, 0, 0, 0, 0, 0, 0, 0, 0, 0, 0, 0, 0, 0, 0, 0, 0, 0, 0, 0, 0, 0,
      0, 0]) = .ok (.sessionStart 0x00 (bits []), []) := by
  decide

theorem test_decode_sessionEnd :
    decode .cmd (bits [0, 0, 0, 0, 0, 1, 0, 1, 0, 0, 0, 0, 0, 0, 0, 0, 0, 0, 0, 0, 0, 0, 0, 0, 0, 0, 0, 0, 0, 0,
      0, 0]) = .ok (.sessionEnd 0x00 (bits []), []) := by
  decide

theorem test_decode_crcRem :
    decode .cmd (bits [0, 0, 0, 1, 0, 0, 0, 0, 0, 0, 0, 0, 0, 0, 0, 0, 0, 0, 0, 0, 0, 0, 0, 0, 0, 0, 0, 0, 0, 1,
      0, 0, 1, 1, 0, 0]) = .ok (.crcRem 0x00 (bits [1, 1, 0, 0]), []) := by
  decide

theorem test_decode_crcAppend :
    decode .cmd (bits [0, 0, 0, 1, 0, 0, 0, 1, 0, 0, 0, 0, 0, 0, 0, 0, 0, 0, 0, 0, 0, 0, 0, 0, 0, 0, 0, 0, 0, 1,
      0, 0, 1, 1, 0, 0]) = .ok (.crcAppend 0x00 (bits [1, 1, 0, 0]), []) := by
  decide

theorem test_decode_crcCheck :
    decode .cmd (bits [0, 0, 0, 1, 0, 0, 1, 0, 0, 0, 0, 0, 0, 0, 0, 0, 0, 0, 0, 0, 0, 0, 0, 0, 0, 0, 0, 0, 0, 1,
      1, 1, 1, 1, 0, 0, 1, 0, 1]) = .ok (.crcCheck 0x00 (bits [1, 1, 0, 0, 1, 0, 1]), []) := by
  decide

theorem test_decode_hamEnc :
    decode .cmd (bits [0, 0, 1, 0, 0, 0, 0, 0, 0, 0, 0, 0, 0, 0, 0, 0, 0, 0, 0, 0, 0, 0, 0, 0, 0, 0, 0, 0, 0, 1,
      0, 0, 1, 1, 0, 0]) = .ok (.hamEnc 0x00 (bits [1, 1, 0, 0]), []) := by
  decide

theorem test_decode_hamDec :
    decode .cmd (bits [0, 0, 1, 0, 0, 0, 0, 1, 0, 0, 0, 0, 0, 0, 0, 0, 0, 0, 0, 0, 0, 0, 0, 0, 0, 0, 0, 0, 0, 1,
      1, 1, 0, 1, 1, 1, 1, 0, 0]) = .ok (.hamDec 0x00 (bits [0, 1, 1, 1, 1, 0, 0]), []) := by
  decide

theorem test_decode_ilv :
    decode .cmd (bits [0, 0, 1, 1, 0, 0, 0, 0, 0, 0, 0, 0, 0, 0, 1, 1, 0, 0, 0, 0, 0, 0, 0, 0, 0, 0, 0, 0, 1, 1,
      0, 0, 1, 1, 1, 1, 0, 0, 0, 0, 1, 0, 1, 0]) = .ok (.ilv 0x03 (bits [1, 1, 1, 1, 0, 0, 0, 0, 1, 0, 1, 0]),
      []) := by
  decide

theorem test_decode_dilv :
    decode .cmd (bits [0, 0, 1, 1, 0, 0, 0, 1, 0, 0, 0, 0, 0, 0, 1, 0, 0, 0, 0, 0, 0, 0, 0, 0, 0, 0, 0, 0, 1, 1,
      1, 0, 0, 1, 1, 0, 1, 0, 1, 0, 1, 0, 0, 1, 0, 1]) = .ok (.dilv 0x02 (bits [0, 1, 1, 0, 1, 0, 1, 0, 1, 0, 0,
      1, 0, 1]), []) := by
  decide

theorem test_decode_cbCombine :
    decode .cmd (bits [0, 1, 0, 0, 0, 0, 0, 0, 0, 0, 0, 0, 0, 0, 0, 0, 0, 0, 0, 0, 0, 0, 0, 0, 0, 0, 0, 0, 1, 0,
      1, 0, 0, 1, 1, 1, 1, 0, 0, 1, 0, 1]) = .ok (.cbCombine 0x00 (bits [0, 1, 1, 1, 1, 0, 0, 1, 0, 1]), []) := by
  decide

theorem test_decode_cbClear :
    decode .cmd (bits [0, 1, 0, 0, 0, 0, 0, 1, 0, 0, 0, 0, 0, 0, 0, 0, 0, 0, 0, 0, 0, 0, 0, 0, 0, 0, 0, 0, 0, 0,
      0, 0]) = .ok (.cbClear 0x00 (bits []), []) := by
  decide

theorem test_decode_cbRead :
    decode .cmd (bits [0, 1, 0, 0, 0, 0, 1, 0, 1, 1, 1, 1, 1, 1, 1, 1, 0, 0, 0, 0, 0, 0, 0, 0, 0, 0, 0, 0, 0, 0,
      0, 0]) = .ok (.cbRead 0xFF (bits []), []) := by
  decide

theorem test_decode_pktPush :
    decode .cmd (bits [0, 1, 0, 1, 0, 0, 0, 0, 0, 0, 0, 0, 0, 0, 0, 0, 0, 0, 0, 0, 0, 0, 0, 0, 0, 0, 0, 0, 0, 1,
      0, 0, 1, 1, 0, 0]) = .ok (.pktPush 0x00 (bits [1, 1, 0, 0]), []) := by
  decide

theorem test_decode_frmIn :
    decode .frmIn (bits [0, 0, 0, 0, 0, 0, 0, 0, 0, 0, 0, 0, 0, 1, 1, 1, 0, 0, 0, 0, 0, 0, 1, 0, 1, 0]) =
      .ok (.frmIn 7 2 (bits [1, 0]), []) := by
  decide

theorem test_decode_ctlAck :
    decode .ctlIn (bits [1, 0, 0, 0, 0, 0, 0, 0, 0, 0, 0, 0, 0, 0, 1, 0, 1]) = .ok (.ctlAck 5, []) := by
  decide

theorem test_decode_ctlNack :
    decode .ctlIn (bits [0, 0, 0, 0, 0, 0, 0, 0, 0, 0, 0, 0, 0, 0, 0, 0, 1]) = .ok (.ctlNack 1, []) := by
  decide

theorem test_decode_strobes :
    decode .frmLost (bits [1]) = .ok (.frmLost, []) ∧ decode .tick (bits [1]) = .ok (.tick, []) ∧
      decode .rst (bits [1, 1]) = .ok (.rst, bits [1]) ∧ decode .tick (bits [0]) = .error .noStrobe := by
  decide

theorem test_internal_steps_have_no_encoding :
    [Instr.txSend, .txAdvance, .rxDecode, .rxRespond].all (fun i => portOf i == none && encode i == []) = true := by
  decide

theorem test_illegal_opcode_refused_by_name :
    decode .cmd (wordBits 32 0xFF000003 ++ bits [1, 0, 1, 1]) = .error (.badOp 0xFF (bits [1])) := by
  decide

theorem test_half_a_header_is_incomplete : decode .cmd (bits [0, 0, 0, 0, 0, 0, 1]) = .error .incomplete := by decide

/-! ## One step of each operation -/

/-- 2.10 -/
theorem test_nop_answers : words (after (.nop 0 []) session) = [0x00000000] := by decide

/-- 2.11 -/
theorem test_nop_len_err : words (after (.nop 0 (bits [1, 0, 1])) session) = [0xA0000000] := by decide

/-- R41 -/
theorem test_reset_restores_gen :
    (after (.reset 0 []) { session with cfg := { Cfg.reset with gen := 0x13 } }).cfg.gen = 0x0000D := by
  decide

/-- 2.11 -/
theorem test_reset_len_err_resets_nothing :
    after (.reset 0 (bits [0])) session = answered session 10 0 [] := by
  decide

/-- 2.10 -/
theorem test_cfg_wr_gen :
    (after (.cfgWr 0 (bits [1, 0, 0, 1, 1])) State.reset).cfg.gen = 0x00013 ∧ frameW (after (.cfgWr 0 (bits [1,
      0, 0, 1, 1])) State.reset).cfg = 11 := by
  decide

/-- 2.11 -/
theorem test_cfg_wr_busy : words (after (.cfgWr 0 (bits [1, 1, 0, 1])) session) = [0x90000000] := by decide

/-- 2.10 -/
theorem test_cfg_rd_gen :
    (after (.cfgRd 0 []) State.reset).out.rsp = [⟨0x00000011, bits [0, 0, 0, 0, 0, 0, 0, 0, 0, 0, 0, 0, 0, 1, 1,
      0, 1]⟩] := by
  decide

/-- 2.10 -/
theorem test_cfg_rd_status :
    data (after (.cfgRd 0x10 []) (sender .awaitingAck 0 0 2 0)) = [wordBits 32 0x00000045] := by
  decide

/-- 2.10 -/
theorem test_session_start : statusWord (after (.sessionStart 0 []) State.reset) = 0x00000001 := by decide

/-- R285, STATUS of 2.10 -/
theorem test_session_start_violation :
    (let t := after (.sessionStart 0 []) { State.reset with cfg := { Cfg.reset with maxAtt := 0 } }; (words t,
      t.run, statusWord t)) = ([0x60000000], false, 0x00000100) := by
  decide

/-- 2.10 -/
theorem test_session_end : (after (.sessionEnd 0 []) session).run = false := by decide

/-- 2.11 -/
theorem test_session_end_busy :
    words (after (.sessionEnd 0 []) (sender .encoding 0 0 0 0)) = [0x90000000] := by
  decide

/-- T1c -/
theorem test_crc_rem : (after (.crcRem 0 p1100) State.reset).out.rsp = [⟨0x00000003, bits [1, 0, 1]⟩] := by decide

/-- T1 -/
theorem test_crc_rem_ccitt :
    crcRem (bits [1]) (bits [1, 0, 0, 0, 1, 0, 0, 0, 0, 0, 0, 1, 0, 0, 0, 0, 1]) = bits [0, 0, 0, 1, 0, 0, 0, 0,
      0, 0, 1, 0, 0, 0, 0, 1] := by
  decide

/-- T1c -/
theorem test_crc_append :
    (after (.crcAppend 0 p1100) State.reset).out.rsp = [⟨0x00000007, bits [1, 1, 0, 0, 1, 0, 1]⟩] := by
  decide

/-- T1c -/
theorem test_crc_check :
    words (after (.crcCheck 0 (bits [1, 1, 0, 0, 1, 0, 1])) State.reset) = [0x01000000] := by
  decide

/-- T1c -/
theorem test_crc_check_fails :
    words (after (.crcCheck 0 (bits [1, 1, 0, 1, 1, 0, 1])) State.reset) = [0x00000000] := by
  decide

/-- T3a -/
theorem test_ham_enc : (after (.hamEnc 0 p1100) State.reset).out.rsp = [⟨0x00000007, b1100⟩] := by decide

/-- T3a -/
theorem test_ham_dec_corrects :
    (after (.hamDec 0 (bits [0, 1, 1, 1, 0, 0, 0])) State.reset).out.rsp = [⟨0x01000004, p1100⟩] := by
  decide

/-- T3a -/
theorem test_ham_dec_malformed :
    words (after (.hamDec 0 (bits [0, 1, 1, 1, 0, 0])) State.reset) = [0x10000000] := by
  decide

/-- 2.5 -/
theorem test_ilv :
    data (after (.ilv 3 (bits [1, 1, 1, 1, 0, 0, 0, 0, 1, 0, 1, 0])) State.reset) = [bits [1, 0, 1, 1, 0, 0, 1,
      0, 1, 1, 0, 0]] := by
  decide

/-- 2.5 -/
theorem test_ilv_zero_refused : words (after (.ilv 0 (bits [1, 0, 1, 0])) State.reset) = [0xA0000000] := by decide

/-- 2.5 -/
theorem test_dilv :
    data (after (.dilv 2 (bits [0, 1, 1, 0, 1, 0, 1, 0, 1, 0, 0, 1, 0, 1])) State.reset) = [bits [0, 1, 1, 1, 1,
      0, 0, 1, 0, 0, 0, 0, 1, 1]] := by
  decide

/-- T9 -/
theorem test_cb_combine :
    (let t := after (.cbCombine 0 f1100) State.reset; (words t, data t, t.cb.cnt, t.cb.empty)) = ([0x0000000A],
      [f1100], 1, false) := by
  decide

/-- T8 -/
theorem test_combine_maj_saturates :
    combine 1 5 [126, -126, 127, -127, 0] (bits [1, 0, 1, 0, 1]) = ([127, -127, 127, -127, 1], bits [1, 0, 1, 0,
      1]) := by
  decide

/-- R205 -/
theorem test_cb_clear : (after (.cbClear 0 []) { withBuffer with run := false }).cb = Cb.reset := by decide

/-- T9 -/
theorem test_cb_read : words (after (.cbRead 0 []) State.reset) = [0x00000050] := by decide

/-- R207 -/
theorem test_cb_read_cells :
    (data (after (.cbRead 0 []) { State.reset with cb := { Cb.reset with acc := [0, 1, -1] } })).map (fun d => d.take 24) =
      [bits [0, 0, 0, 0, 0, 0, 0, 0, 0, 0, 0, 0, 0, 0, 0, 1, 1, 1, 1, 1, 1, 1, 1, 1]] := by
  decide

/-- 2.8 -/
theorem test_pkt_push :
    (let t := after (.pktPush 0 p1100) session; (words t, t.tx.state, t.tx.pay)) = ([0x00000000], .encoding,
      p1100) := by
  decide

/-- 2.11 -/
theorem test_pkt_push_seq_full :
    words (after (.pktPush 0 p1100) { session with tx := { Tx.reset with seqOvf := true } }) =
      [0xD0000000] := by
  decide

/-- 2.8 -/
theorem test_tx_send :
    (let t := after .txSend (sender .encoding 0 0 0 7); (t.out.frmOut, t.tx.state, t.tx.deadline,
      t.txCnt.frames)) = ([⟨0x00000A, f1100⟩], .awaitingAck, 9, 1) := by
  decide

/-- 2.8 -/
theorem test_tx_send_again :
    (let t := after .txSend (sender .retrying 0 1 9 9); (t.tx.deadline, t.txCnt.retx)) = (11, 1) := by
  decide

/-- 2.8 -/
theorem test_ctl_ack :
    (let t := after (.ctlAck 0) (sender .awaitingAck 0 0 2 0); (t.tx.state, t.tx.outstanding, t.txCnt.acked)) =
      (.acked, false, 1) := by
  decide

/-- 2.8 -/
theorem test_ctl_ack_stale :
    (let t := after (.ctlAck 5) (sender .awaitingAck 0 0 2 0); (t.tx.state, t.txCnt.stale)) = (.awaitingAck,
      1) := by
  decide

/-- 2.8 -/
theorem test_ctl_nack :
    (let t := after (.ctlNack 0) (sender .awaitingAck 0 0 2 0); (t.tx.state, t.tx.attempts)) = (.retrying,
      1) := by
  decide

/-- 2.8 -/
theorem test_ctl_nack_exhausts :
    (let t := after (.ctlNack 0) (sender .awaitingAck 0 3 2 0); (t.tx.state, t.tx.attempts,
      t.txCnt.exhausted)) = (.exhausted, 4, 1) := by
  decide

/-- 2.8 -/
theorem test_tick_expires :
    (let t := after .tick (sender .awaitingAck 0 3 9 8); (t.tx.time, t.tx.state, t.txCnt.timeout)) = (9,
      .exhausted, 1) := by
  decide

/-- 2.8 -/
theorem test_tick_ignores_an_old_deadline :
    (let t := after .tick (sender .idle 0 0 9 8); (t.tx.time, t.tx.state)) = (9, .idle) := by
  decide

/-- 2.8 -/
theorem test_tx_advance :
    (let t := after .txAdvance (sender .exhausted 1 4 0 0); (t.out.txOut, t.tx.seq, t.tx.attempts,
      t.tx.state)) = ([0x50030001], 2, 0, .idle) := by
  decide

/-- 2.8 -/
theorem test_tx_advance_wraps :
    (let t := after .txAdvance (sender .acked 0xFFFF 0 0 0); (t.out.txOut, statusWord t)) = ([0x0000FFFF],
      0x00000201) := by
  decide

/-- 2.9 -/
theorem test_frm_in_clears_on_another_tag :
    (let t := after (.frmIn 7 10 f1100) withBuffer; (t.cb.seq, t.cb.empty, t.rx.state)) = (7, true,
      .decoding) := by
  decide

/-- R251, log 4 -/
theorem test_frm_in_waits_outside_a_session : after (.frmIn 0 10 f1100) State.reset = State.reset := by decide

/-- 2.9 -/
theorem test_frm_lost : (let t := after .frmLost session; (t.rxCnt.lost, statusWord t)) = (1, 0x00004001) := by decide

/-- 2.9 -/
theorem test_rx_decode_corrects :
    (let t := after .rxDecode (latched (bits [0, 1, 0, 1, 1, 0, 0, 1, 0, 1])); (t.out.rxOut, t.rx.state)) =
      ([⟨0x01000000, p1100⟩], .validatedAck) := by
  decide

/-- 2.9 -/
theorem test_rx_decode_keeps_a_failed_frame :
    (let t := after .rxDecode (latched (bits [0, 1, 1, 1, 1, 0, 0, 1, 0, 0])); (t.out.rxOut, t.cb.cnt)) =
      ([⟨0x30000000, []⟩], 1) := by
  decide

/-- 2.9 -/
theorem test_rx_respond :
    (let t := after .rxRespond { session with rx := { Rx.reset with state := .validatedAck, seq := 7 } };
      (t.out.ctlOut, t.rx.state)) = ([0x10007], .waitingFrame) := by
  decide

/-- R340 -/
theorem test_rst_discards_what_is_presented :
    (let t := after .rst (linked .host (bits [1, 0]) [] [] (sender .retrying 3 1 2 2)); (t.tx, t.env.cmdIn)) =
      (Tx.reset, []) := by
  decide

/-! ## Fetching -/

theorem test_step_takes_the_command_placed :
    (nextOf (step (State.reset.withFetchWord 32 0x04000000))).run = true := by
  decide

theorem test_step_takes_the_ack_placed :
    (nextOf (step (State.reset.withFetchWord 24 0x10000))).tx.state = .acked := by
  decide

theorem test_step_takes_the_frame_placed :
    (let t := nextOf (step (State.reset.withFetchWord 24 0x070002)); (t.rx.seq, t.rx.frm)) = (0x0700, bits [0,
      0]) := by
  decide

theorem test_table_words :
    decodeTableWord 32 0x50000004 = some (.pktPush 0 (zeros 4)) ∧ decodeTableWord 24 0x10005 =
      some (.ctlAck 5) ∧ decodeTableWord 24 0x00005 = some (.ctlNack 5) ∧ decodeTableWord 24 0x030001 =
      some (.frmIn 0x0300 1 (bits [0])) ∧ decodeTableWord 8 1 = some .tick := by
  decide

theorem test_reset_ticks_by_default : (nextOf (step State.reset)).tx.time = 1 := by decide

/-! ## Witnesses: states and operands that meet the hypotheses of the statements -/

/-- The hypothesis of the statements about host commands: NopOnlyAnswers, ResetCommandResets, CfgRdReadsOneRegister,
SessionStartChecksAndClears, SessionEndClearsRun, HamEncCommandAnswers, HamDecCommandAnswers, CbCombineCommits,
CbClearEmpties, CbReadReturnsTheCells, PktPushLatchesThePacket; and of the others below that have it too. -/
theorem witness_command_payload :
    ([] : Bits).length < 65536 ∧ (zeros 65535).length < 65536 := by
  simp only [zeros, List.length_replicate, List.length_nil]
  decide

/-- Both clauses. -/
theorem witness_ResetCommandResets :
    ([] : Bits).length = 0 ∧ (bits [0]).length ≠ 0 := by
  decide

/-- The clause of a block that is not quiescent. -/
theorem witness_CfgWrWritesOneRegister_busy :
    quiescent session = false ∧ (bits [1]).length < 65536 := by
  decide

/-- The clause of the reserved indices, at the ends of each range. -/
theorem witness_CfgWrWritesOneRegister_reserved :
    quiescent State.reset = true ∧ ∀ idx ∈ [0x05, 0x0F, 0x17, 0x1F, 0x2D, 0xFF],
      reservedIndex (BitVec.ofNat 8 idx).toNat := by
  simp [reservedIndex]; decide

/-- The clause of the read-only registers, at the ends of each range. -/
theorem witness_CfgWrWritesOneRegister_read_only :
    quiescent State.reset = true ∧ ∀ idx ∈ [0x10, 0x16, 0x20, 0x2C],
      ¬ reservedIndex (BitVec.ofNat 8 idx).toNat ∧ 0x10 ≤ (BitVec.ofNat 8 idx).toNat := by
  simp [reservedIndex]; decide

/-- The clause of the wrong lengths, at 0 and one above the width. -/
theorem witness_CfgWrWritesOneRegister_length :
    quiescent State.reset = true ∧ (0x04 : BitVec 8).toNat ≤ 0x04 ∧ ([] : Bits).length = 0 ∧
      cfgWidth (0x04 : BitVec 8).toNat < (bits [0, 0, 0]).length := by
  decide

/-- The clause of a value written, at both ends of the index and of the width. -/
theorem witness_CfgWrWritesOneRegister_written :
    quiescent State.reset = true ∧ (0x00 : BitVec 8).toNat ≤ 0x04 ∧ 1 ≤ (zeros 17).length ∧
      (zeros 17).length ≤ cfgWidth (0x00 : BitVec 8).toNat ∧
      (bits [1]).length ≤ cfgWidth (0x04 : BitVec 8).toNat := by
  decide

/-- Its last clause. -/
theorem witness_StatusAssemblesTheFlags :
    quiescent State.reset = true := by
  decide

/-- The first clause. -/
theorem witness_CrcCommandsAnswer_busy :
    quiescent session = false := by
  decide

/-- The second clause: no generator, a constant one, an even one. -/
theorem witness_CrcCommandsAnswer_illegal :
    quiescent State.reset = true ∧ ∀ g ∈ [0x0, 0x1, 0xC], genOk { Cfg.reset with gen := BitVec.ofNat 17 g } =
      false := by
  decide

/-- The third clause: the shortest, the default and the longest generator; CrcDetectsEverySingleError as well. -/
theorem witness_CrcCommandsAnswer_legal :
    quiescent State.reset = true ∧ ∀ g ∈ [0x3, 0xD, 0x1FFFF],
      genOk { Cfg.reset with gen := BitVec.ofNat 17 g } = true := by
  decide

/-- The second clause, both ways. -/
theorem witness_InterleaverCommandsAnswer_refused :
    quiescent State.reset = true ∧ (0 : BitVec 8).toNat = 0 ∧ (bits [1, 0, 1,
      0]).length % (3 : BitVec 8).toNat ≠ 0 := by
  decide

/-- The third clause. -/
theorem witness_InterleaverCommandsAnswer_done :
    quiescent State.reset = true ∧ (255 : BitVec 8).toNat ≠ 0 ∧ ([] : Bits).length % (255 : BitVec 8).toNat =
      0 ∧ (bits [1, 0, 1]).length % (3 : BitVec 8).toNat = 0 := by
  decide

/-- Both states. -/
theorem witness_TxSendEmitsTheFrame :
    (sender .encoding 0 0 0 7).tx.state = .encoding ∧ (sender .retrying 0 1 9 9).tx.state = .retrying := by
  decide

/-- The hypothesis of CtlAckAcknowledges and CtlNackFailsTheTransmission. -/
theorem witness_control_words :
    (sender .awaitingAck 0 0 2 0).tx.state = .awaitingAck := by
  decide

/-- Both states. -/
theorem witness_TxAdvanceReportsTheOutcome :
    (sender .acked 0xFFFF 0 0 0).tx.state = .acked ∧ (sender .exhausted 1 4 0 0).tx.state = .exhausted := by
  decide

/-- The hypotheses on the state of FrmInLatchesTheFrame and FrmLostIsOnlyCounted. -/
theorem witness_receiver_waits :
    session.run = true ∧ session.rx.state = .waitingFrame := by
  decide

/-- A failed frame; `test_rx_respond` is on a validated one. -/
theorem witness_RxRespondAnswersTheFrame :
    ({ session with rx := { Rx.reset with state := .invalidatedNack } } : State).rx.state =
      .invalidatedNack := by
  decide

/-- Every clause. -/
theorem witness_WithoutItsGuardAnOperationChangesNothing :
    session.tx.state ≠ .encoding ∧ session.tx.state ≠ .retrying ∧ session.tx.state ≠ .acked ∧ session.tx.state ≠
      .exhausted ∧ session.tx.state ≠ .awaitingAck ∧ session.rx.state ≠ .decoding ∧ session.rx.state ≠
      .validatedAck ∧ session.rx.state ≠ .invalidatedNack ∧ State.reset.run = false ∧ (latched f1100).rx.state ≠
      .waitingFrame := by
  decide

/-- The clauses of another length, of a valid word and of one that fails the CRC; see the next for a bad syndrome. -/
theorem witness_RxProcessReportsTheFirstResult :
    9 ≠ frameW Cfg.reset ∧ f1100.length = frameW Cfg.reset ∧
      syndrome 0 ((combine 0 10 Cb.reset.acc f1100).2.take 7) ≤ blockN 0 ∧
      polymod (extractData 0 b1100 ++ (combine 0 10 Cb.reset.acc f1100).2.drop 7) (genSeq Cfg.reset) =
      zeros (degR Cfg.reset) ∧ ¬ polymod (bits [1, 1, 0, 0, 1, 0, 0]) (genSeq Cfg.reset) =
      zeros (degR Cfg.reset) := by
  decide

/-- T5: positions 8 and 64. -/
theorem witness_RxProcessReportsTheFirstResult_syndrome :
    blockN 1 < syndrome 1 (((zeros 71).set 7 true).set 63 true) := by
  decide +kernel

/-- A frame of each end of `flen`. -/
theorem witness_FrmInLatchesTheFrame :
    f1100.length = (10 : BitVec 8).toNat ∧ ([] : Bits).length = (0 : BitVec 8).toNat ∧ (zeros 255).length =
      (255 : BitVec 8).toNat := by
  simp only [zeros, List.length_replicate]
  decide

/-- A frame latched; every result: `test_rx_process_gives_each_result`, `test_rx_process_syndrome`. -/
theorem witness_RxDecodeAppliesTheResult :
    (latched f1100).rx.state = .decoding := by
  decide

/-- T5: an error pattern at positions 8 and 64 -/
theorem test_rx_process_syndrome :
    (rxProcess { Cfg.reset with gen := 0x13, variant := 1 } (((zeros 75).set 7 true).set 63 true) Cb.reset.acc).code =
      .invalidSyndrome := by
  decide +kernel

/-- 2.9 -/
theorem test_rx_process_gives_each_result :
    ([f1100, bits [0], bits [0, 1, 1, 1, 1, 0, 0, 1, 0,
      0]].map fun f => (rxProcess Cfg.reset f Cb.reset.acc).code) = [.ok, .malformedFrame, .crcMismatch] := by
  decide

/-- Every clause; a flip at each end. -/
theorem witness_CrcDetectsEverySingleError :
    genOk Cfg.reset = true ∧ 0 < p1100.length + degR Cfg.reset ∧ 6 < p1100.length + degR Cfg.reset ∧
      p1100.length = (bits [0, 0, 0, 1]).length ∧ crcCheck (bits [1, 1, 0, 0, 1, 0, 1]) (genSeq Cfg.reset) =
      true := by
  decide

/-- Both variants, the last parity bit of each. -/
theorem witness_HamEncPlacesDataWithEvenParity :
    p1100.length = dataK 0 ∧ (zeros 64).length = dataK 1 ∧ 2 < parityMP 0 ∧ 6 < parityMP 1 := by
  decide

/-- Both variants, a flip of the last bit of each, data that is not zero. -/
theorem witness_HammingCorrectsEverySingleError :
    p1100.length = dataK 0 ∧ (zeros 64).length = dataK 1 ∧ 6 < blockN 0 ∧ 70 < blockN 1 ∧ p1100 ≠
      zeros (dataK 0) := by
  decide

/-- Errors at both ends, one of them twice. -/
theorem witness_SyndromeIsTheXorOfTheErrors :
    p1100.length = dataK 0 ∧ ∀ q ∈ [1, 7, 7], 1 ≤ q ∧ q ≤ blockN 0 := by
  decide

/-- The last bit of the last codeword. -/
theorem witness_InterleaverMovesEachBit :
    1 ≤ 3 ∧ (zeros 12).length = 3 * 4 ∧ 3 < 4 ∧ 2 < 3 := by
  decide

/-- With and without bits. -/
theorem witness_InterleaverIsALosslessPermutation :
    1 ≤ 3 ∧ (zeros 12).length = 3 * 4 ∧ (1 ≤ 2 ∧ ([] : Bits).length = 2 * 0) := by
  decide

/-- The last cell. -/
theorem witness_OrCombiningKeepsEveryOne :
    ((0 : BitVec 2) = 0 ∨ (0 : BitVec 2) = 1) ∧ 86 < 87 := by
  decide

/-- The most receptions it speaks of. -/
theorem witness_MajCombiningTakesTheMajority :
    (List.replicate 126 f1100).length < 127 ∧ 9 < 10 := by
  simp only [List.length_replicate]
  decide

/-- A state with the invariant, and its step answers a next state. -/
theorem witness_EveryStepKeepsInv :
    CoreInv (sender .awaitingAck 0 0 2 0) ∧ step (sender .awaitingAck 0 0 2 0) =
      .next (nextOf (step (sender .awaitingAck 0 0 2 0))) := by
  refine ⟨⟨⟨?_, ?_, ?_, ?_, ?_, ?_, ?_⟩, ?_, ?_, ?_, ?_⟩, rfl⟩ <;> decide

/-- A state reached. -/
theorem witness_ReachableStatesKeepTheSpecInvariants :
    RunsTo 1 { State.reset with env := State.reset.env } { State.reset with tx := { Tx.reset with time := 1 } } := by
  rfl

/-- An operation answers a next state. -/
theorem witness_ConfigurationChangesOnlyWhenQuiescent :
    exec (.nop 0 []) State.reset = .next (answered State.reset 0 0 []) := by
  rfl

/-- A transition. -/
theorem witness_SenderTakesOnlyItsTransitions :
    ∃ t, exec .txSend (sender .encoding 0 0 0 7) = .next t ∧ t.tx.state ≠
      (sender .encoding 0 0 0 7).tx.state := by
  exact ⟨_, rfl, by decide⟩

/-- A transition. -/
theorem witness_ReceiverTakesOnlyItsTransitions :
    ∃ t, exec (.frmIn 7 10 f1100) session = .next t ∧ t.rx.state ≠ session.rx.state := by
  exact ⟨_, rfl, by decide⟩

/-- An operation that is no reset and no start. -/
theorem witness_CountersRiseOnlyAsListed :
    (∃ t, exec .tick session = .next t) ∧ (∀ aux p, Instr.tick ≠ .reset aux p) ∧ Instr.tick ≠ .rst ∧ ∀ aux p,
      Instr.tick ≠ .sessionStart aux p := by
  exact ⟨⟨_, rfl⟩, nofun, nofun, nofun⟩

/-- An operation that is no read. -/
theorem witness_CountersNeverInfluenceBehaviour :
    ∀ aux p, Instr.tick ≠ .cfgRd aux p := by
  nofun

/-- One of each. -/
theorem witness_SenderAndReceiverShareNoState :
    senderOp .tick = true ∧ receiverOp .frmLost = true := by
  decide

/-- One of each. -/
theorem witness_InternalStepsCommute :
    (Instr.txSend = .txSend ∨ Instr.txSend = .txAdvance) ∧ (Instr.rxRespond = .rxDecode ∨ Instr.rxRespond =
      .rxRespond) := by
  decide

/-- A refused command. -/
theorem witness_RefusedCommandsChangeNothing :
    ∃ t, wellFormed (.ilv 0 p1100) = true ∧ portOf (.ilv 0 p1100) = some .cmd ∧
      exec (.ilv 0 p1100) State.reset = .next t ∧ t = answered State.reset 10 0 [] := by
  exact ⟨_, by decide, rfl, rfl, by decide⟩

/-- A receiver that waits. -/
theorem witness_EveryFrameIsAnsweredOnce :
    session.run = true ∧ session.rx.state = .waitingFrame := by
  decide

/-- A transmission whose deadline wraps; the last tick before it. -/
theorem witness_DeadlineStrikesAtTheTimeoutthTick :
    (sender .retrying 0 1 0 0xFFFFFFFF).tx.state = .retrying ∧ 1 ≤ session.cfg.timeout.toNat ∧
      1 < session.cfg.timeout.toNat := by
  decide

/-- A fresh packet. -/
theorem witness_LostTransmissionsEndExhausted :
    (sender .encoding 0 0 0 0).tx.state = .encoding ∧ (sender .encoding 0 0 0 0).tx.attempts = 0 ∧
      1 ≤ session.cfg.timeout.toNat ∧ 1 ≤ session.cfg.maxAtt.toNat := by
  decide

/-- The frame of `1100`. -/
theorem witness_PerfectFrameValidates :
    (latched f1100).rx.state = .decoding ∧ cfgOk (latched f1100).cfg = true ∧ (∀ c ∈ (latched f1100).cb.acc, c =
      0) ∧ p1100.length = dataK (latched f1100).cfg.variant ∧ (latched f1100).rx.frm =
      txFrame (latched f1100).cfg p1100 ∧ (latched f1100).rx.len =
      BitVec.ofNat 8 (frameW (latched f1100).cfg) := by
  decide

/-- A flip of the last bit it speaks of. -/
theorem witness_OneErrorInTheBlockIsCorrected :
    (let s := latched (flipBit f1100 6); s.rx.state = .decoding ∧ cfgOk s.cfg = true ∧ (∀ c ∈ s.cb.acc, c = 0) ∧
      p1100.length = dataK s.cfg.variant ∧ s.rx.frm = flipBit (txFrame s.cfg p1100) 6 ∧ s.rx.len =
      BitVec.ofNat 8 (frameW s.cfg)) ∧ 6 < blockN Cfg.reset.variant := by
  decide

/-- A flip of the last bit it speaks of. -/
theorem witness_OneErrorInTheCrcIsNacked :
    (let s := latched (flipBit f1100 9); s.rx.state = .decoding ∧ cfgOk s.cfg = true ∧ (∀ c ∈ s.cb.acc, c = 0) ∧
      p1100.length = dataK s.cfg.variant ∧ s.rx.frm = flipBit (txFrame s.cfg p1100) 9 ∧ s.rx.len =
      BitVec.ofNat 8 (frameW s.cfg)) ∧ blockN Cfg.reset.variant ≤ 9 ∧ 9 < frameW Cfg.reset := by
  decide

/-- The host's clause. -/
theorem witness_StepRunsTheDecodedOperation_host :
    (linked .host (wordBits 32 0) [] [] session).env.turns = [.host] ∧ decode .cmd (wordBits 32 0) =
      .ok (.nop 0 [], []) := by
  decide

/-- The channel's clauses. -/
theorem witness_StepRunsTheDecodedOperation_channel :
    (linked (.channelDeliver []) [] [⟨0x00000A, f1100⟩] [] session).env.chan = [⟨0x00000A, f1100⟩] ∧
      decode .frmIn (frameWire ⟨0x00000A, f1100⟩ []) = .ok (.frmIn 0 10 f1100, []) ∧
      (linked .channelLose [] [⟨0x00000A, f1100⟩] [] session).env.turns = [.channelLose] := by
  decide

/-- The control path's clause. -/
theorem witness_StepRunsTheDecodedOperation_control :
    (linked .controlDeliver [] [] [0x10005] session).env.ctlPath = [0x10005] ∧
      decode .ctlIn (wordBits 17 (0x10005 : BitVec 17).toNat) = .ok (.ctlAck 5, []) := by
  decide

/-- The clauses of the clock and the platform. -/
theorem witness_StepRunsTheDecodedOperation_strobes :
    (linked .clock [] [] [] session).env.turns = [.clock] ∧ controlFirst (linked .clock [] [] [] session) =
      false ∧ (linked .platform [] [] [] session).env.turns = [.platform] := by
  decide

/-- The controllers' clauses. -/
theorem witness_StepRunsTheDecodedOperation_internal :
    senderStep (linked .sender [] [] [] (sender .encoding 0 0 0 0)) = some .txSend ∧
      receiverStep (linked .receiver [] [] [] (latched f1100)) = some .rxDecode := by
  decide

/-- A word pending at the last tick. -/
theorem witness_PendingControlWordComesBeforeTheDeadline :
    (let s := linked .clock [] [] [0x10000] (sender .awaitingAck 0 0 9 8); s.env.turns = [.clock] ∧
      s.env.ctlReady = true ∧ s.env.ctlPath = [0x10000] ∧ s.tx.state = .awaitingAck ∧ s.tx.time + 1 =
      s.tx.deadline) := by
  decide

/-- A frame. -/
theorem witness_DecodeReadsBackEveryEncoding :
    wellFormed (.frmIn 7 10 f1100) = true ∧ portOf (.frmIn 7 10 f1100) = some .frmIn := by
  decide

/-- Both ends of every illegal range. -/
theorem witness_IllegalOpcodesAnswerBadOp :
    (∀ op ∈ [0x06, 0x0F, 0x13, 0x1F, 0x22, 0x2F, 0x32, 0x3F, 0x43, 0x4F, 0x51, 0xFF], illegalOpcode op) ∧
      (bits [1, 0, 1]).length < 65536 ∧ (linked .host (cmdWire 0xFF 0 (bits [1, 0,
      1]) ++ []) [] [] session).env.turns = [.host] := by
  simp [illegalOpcode]; decide

/-! ## Lines of the assembler -/

/-- A line of the shape of those of P8 (R105). -/
theorem test_line_of_a_command :
    parseLine "CFG_WR GEN, 1101                   ; hdr 0x02000004".toList =
      some (some (.op (.cfgWr 0x00 [true, true, false, true]))) := by decide

/-- R105, R106: events, pseudo-operations, the empty sequence, an output, and no line at all. -/
theorem test_lines_of_events :
    parseLine "PASS_FLIP 8, 64".toList = some (some (.passFlip [8, 64])) ∧
    parseLine "FRM_IN 0x10, 0_1".toList = some (some (.op (.frmIn 16 2 [false, true]))) ∧
    parseLine "CRC_REM , []".toList = some (some (.op (.crcRem 0 []))) ∧
    parseLine "      -> CTL_OUT 0x10000".toList = some none ∧
    parseLine "FROB 1".toList = none := by decide

/-- Log 22: a `TX_SEND` line in `Acked` runs nothing, and a `FRM_LOST` line outside a session leaves nothing behind. -/
theorem test_lines_without_their_guard :
    runLines [.op .txSend] (sender .acked 3 0 2 1) = .next (sender .acked 3 0 2 1) ∧
    runLines [.op .frmLost] State.reset = .next State.reset := by
  constructor <;> rfl

/-- R106: the same line where its guard holds. -/
theorem test_line_with_its_guard :
    runLines [.op .frmLost] session = exec .frmLost session := rfl

end Sys2Proof.Tests
end

section
/-! The scope of an operation (00_scope.md, R13): without its guard it changes nothing (O28), and a step is the operation
decoded at the port whose turn it is (O56). -/

namespace Sys2Proof.Machine

/-! ## The guards as conditions on the state (R63, R73, R224, R229, R253, R254) -/

theorem frmReady_iff (s : State) : frmReady s = true ↔ s.run = true ∧ s.rx.state = .waitingFrame := by
  simp [frmReady]

theorem ctlReadyToTake_iff (s : State) : ctlReadyToTake s = true ↔ s.tx.state = .awaitingAck := by
  simp [ctlReadyToTake]

theorem txSendReady_iff (s : State) : txSendReady s = true ↔ s.tx.state = .encoding ∨ s.tx.state = .retrying := by
  simp [txSendReady]

theorem txAdvanceReady_iff (s : State) :
    txAdvanceReady s = true ↔ s.tx.state = .acked ∨ s.tx.state = .exhausted := by
  simp [txAdvanceReady]

theorem rxDecodeReady_iff (s : State) : rxDecodeReady s = true ↔ s.rx.state = .decoding := by
  simp [rxDecodeReady]

theorem rxRespondReady_iff (s : State) :
    rxRespondReady s = true ↔ s.rx.state = .validatedAck ∨ s.rx.state = .invalidatedNack := by
  simp [rxRespondReady]

/-! ## An operation without its guard -/

/-- The shape of every guarded operation: an effect under its guard, and else the state itself. -/
theorem next_guarded_eq {guard : Bool} (h : ¬ guard = true) (effect s : State) :
    (.next (if guard then effect else s) : Result) = .next s :=
  congrArg _ (if_neg h)

/-- Log 4: an operation whose guard is false changes nothing. A host command, `TICK` and `RST` have no guard (R100). -/
theorem exec_of_not_ready {i : Instr} {s : State} (h : ¬ ready i s = true) : exec i s = .next s := by
  cases i
  case frmIn seq flen bits => exact next_guarded_eq h _ s
  case frmLost => exact next_guarded_eq h _ s
  case ctlAck seq => exact next_guarded_eq h _ s
  case ctlNack seq => exact next_guarded_eq h _ s
  case txSend => exact next_guarded_eq h _ s
  case txAdvance => exact next_guarded_eq h _ s
  case rxDecode => exact next_guarded_eq h _ s
  case rxRespond => exact next_guarded_eq h _ s
  all_goals exact absurd rfl h

/-- Settles O28, guard by guard. -/
theorem withoutItsGuardAnOperationChangesNothing : Obligations.WithoutItsGuardAnOperationChangesNothing := by
  intro s
  refine ⟨fun hEnc hRetry => ?send, fun hAck hExh => ?advance, fun hWait => ?control, fun hDec => ?decode,
    fun hVal hInv => ?respond, fun hPort => ?frame⟩
  case send => exact exec_of_not_ready (mt (txSendReady_iff s).1 (not_or.2 ⟨hEnc, hRetry⟩))
  case advance => exact exec_of_not_ready (mt (txAdvanceReady_iff s).1 (not_or.2 ⟨hAck, hExh⟩))
  case control =>
    have hNot : ¬ ctlReadyToTake s = true := mt (ctlReadyToTake_iff s).1 hWait
    exact fun seq => ⟨exec_of_not_ready hNot, exec_of_not_ready hNot⟩
  case decode => exact exec_of_not_ready (mt (rxDecodeReady_iff s).1 hDec)
  case respond => exact exec_of_not_ready (mt (rxRespondReady_iff s).1 (not_or.2 ⟨hVal, hInv⟩))
  case frame =>
    have hNot : ¬ frmReady s = true := by
      rw [frmReady_iff, not_and_or, Bool.not_eq_true]
      exact hPort
    exact ⟨exec_of_not_ready hNot, fun seq flen bits => exec_of_not_ready hNot⟩

/-! ## What a port's guard depends on

The guard belongs to the port and not to the word on it: whatever the decoder reads there, the port accepts or not. -/

theorem ready_of_decode_frmIn {wire : Bits} {i : Instr} {rest : Bits} (h : decode .frmIn wire = .ok (i, rest))
    (s : State) : ready i s = frmReady s := by
  simp only [decode, decodeFrm] at h
  split at h
  · cases h
  · cases h
    rfl

theorem ready_of_decode_ctlIn {wire : Bits} {i : Instr} {rest : Bits} (h : decode .ctlIn wire = .ok (i, rest))
    (s : State) : ready i s = ctlReadyToTake s := by
  cases wire with
  | nil => cases h
  | cons kind tail =>
    simp only [decode, decodeCtl] at h
    split at h
    · cases h
    · cases h
      cases kind <;> rfl

/-! ## A turn taken -/

/-- A step with a turn listed takes that turn, unless it is a `TICK` that R308 (a) makes wait. -/
theorem step_of_turn {s : State} {t : Turn} {ts : List Turn} (hTurn : s.env.turns = t :: ts)
    (hClock : ¬ (t = .clock ∧ controlFirst s = true)) :
    step s = runFetched exec (fetchTurn t (withTurns ts s)) := by
  simp only [step, fetch, hTurn, if_neg hClock]

/-- R63, R73: what is decoded at a port is executed when the port accepts, and else nothing is taken. -/
theorem runFetched_fetchPort {p : Port} {wire : Bits} {i : Instr} {rest : Bits} (h : decode p wire = .ok (i, rest))
    (meaning : Instr → State → Result) (taken s : State) :
    runFetched meaning (fetchPort p wire taken s) = if ready i s then meaning i taken else .next s := by
  simp only [fetchPort, h]
  split <;> rfl

/-- R287: the host's turn takes the command that is decoded on `CMD`. -/
theorem fetchTurn_host {s : State} {i : Instr} {rest : Bits} (h : decode .cmd s.env.cmdIn = .ok (i, rest)) :
    fetchTurn .host s = .run i (withCmdIn rest s) := by
  simp only [fetchTurn, fetchCmd, h]

/-- R186 (b): a delivery presents the oldest frame of the channel at `FRM_IN`. -/
theorem fetchTurn_channelDeliver {s : State} {f : Frame} {fs : List Frame} (h : s.env.chan = f :: fs) (mask : Bits) :
    fetchTurn (.channelDeliver mask) s = fetchPort .frmIn (frameWire f mask) (withChan fs s) s := by
  simp only [fetchTurn, h]

/-- R186 (a): a reported loss strobes `FRM_LOST`. -/
theorem fetchTurn_channelLose {s : State} {f : Frame} {fs : List Frame} (h : s.env.chan = f :: fs) :
    fetchTurn .channelLose s = fetchPort .frmLost [true] (withChan fs s) s := by
  simp only [fetchTurn, h]

/-- R192: the control path presents its oldest word at `CTL_IN`. -/
theorem fetchTurn_controlDeliver {s : State} {w : BitVec 17} {ws : List (BitVec 17)} (h : s.env.ctlPath = w :: ws) :
    fetchTurn .controlDeliver s = fetchPort .ctlIn (wordBits 17 w.toNat) (withCtlPath ws s) s := by
  simp only [fetchTurn, h]

/-! ## One step per agent -/

theorem step_host {s : State} {ts : List Turn} {i : Instr} {rest : Bits} (hTurn : s.env.turns = .host :: ts)
    (hDec : decode .cmd s.env.cmdIn = .ok (i, rest)) :
    step s = exec i (withCmdIn rest (withTurns ts s)) := by
  rw [step_of_turn hTurn (by simp), fetchTurn_host (s := withTurns ts s) hDec]
  rfl

theorem step_channelDeliver {s : State} {ts : List Turn} {mask : Bits} {f : Frame} {fs : List Frame} {i : Instr}
    {rest : Bits} (hTurn : s.env.turns = .channelDeliver mask :: ts) (hChan : s.env.chan = f :: fs)
    (hDec : decode .frmIn (frameWire f mask) = .ok (i, rest)) :
    step s = if frmReady s then exec i (withChan fs (withTurns ts s)) else .next (withTurns ts s) := by
  rw [step_of_turn hTurn (by simp), fetchTurn_channelDeliver (s := withTurns ts s) hChan, runFetched_fetchPort hDec,
    ready_of_decode_frmIn hDec]
  rfl

theorem step_channelLose {s : State} {ts : List Turn} {f : Frame} {fs : List Frame}
    (hTurn : s.env.turns = .channelLose :: ts) (hChan : s.env.chan = f :: fs) :
    step s = if frmReady s then exec .frmLost (withChan fs (withTurns ts s)) else .next (withTurns ts s) := by
  rw [step_of_turn hTurn (by simp), fetchTurn_channelLose (s := withTurns ts s) hChan, runFetched_fetchPort rfl]
  rfl

theorem step_controlDeliver {s : State} {ts : List Turn} {w : BitVec 17} {ws : List (BitVec 17)} {i : Instr}
    {rest : Bits} (hTurn : s.env.turns = .controlDeliver :: ts) (hPath : s.env.ctlPath = w :: ws)
    (hDec : decode .ctlIn (wordBits 17 w.toNat) = .ok (i, rest)) :
    step s = if s.tx.state = .awaitingAck then exec i (withCtlPath ws (withTurns ts s))
      else .next (withTurns ts s) := by
  rw [step_of_turn hTurn (by simp), fetchTurn_controlDeliver (s := withTurns ts s) hPath, runFetched_fetchPort hDec,
    ready_of_decode_ctlIn hDec]
  simp only [ctlReadyToTake_iff, withTurns_tx]

/-- R193; `controlFirst` is the one reason for a `TICK` to wait (R308 (a)). -/
theorem step_clock {s : State} {ts : List Turn} (hTurn : s.env.turns = .clock :: ts)
    (hFirst : controlFirst s = false) : step s = exec .tick (withTurns ts s) := by
  rw [step_of_turn hTurn (by simp [hFirst])]
  rfl

theorem step_platform {s : State} {ts : List Turn} (hTurn : s.env.turns = .platform :: ts) :
    step s = exec .rst (withTurns ts s) := by
  rw [step_of_turn hTurn (by simp)]
  rfl

theorem step_sender {s : State} {ts : List Turn} {i : Instr} (hTurn : s.env.turns = .sender :: ts)
    (hStep : senderStep s = some i) : step s = exec i (withTurns ts s) := by
  have hStep' : senderStep (withTurns ts s) = some i := hStep
  rw [step_of_turn hTurn (by simp)]
  simp only [fetchTurn, fetchInternal, hStep', runFetched]

theorem step_receiver {s : State} {ts : List Turn} {i : Instr} (hTurn : s.env.turns = .receiver :: ts)
    (hStep : receiverStep s = some i) : step s = exec i (withTurns ts s) := by
  have hStep' : receiverStep (withTurns ts s) = some i := hStep
  rw [step_of_turn hTurn (by simp)]
  simp only [fetchTurn, fetchInternal, hStep', runFetched]

/-- Settles O56, agent by agent. -/
theorem stepRunsTheDecodedOperation : Obligations.StepRunsTheDecodedOperation := fun _ _ =>
  ⟨fun _ _ => step_host, fun _ _ _ _ _ => step_channelDeliver, fun _ _ => step_channelLose,
    fun _ _ _ _ => step_controlDeliver, step_clock, step_platform, fun _ => step_sender, fun _ => step_receiver⟩

end Sys2Proof.Machine
end

section
/-! The state of HARQ-CORE (10_state.md): what reset leaves (O1, O38), the invariants of R42 (O39, O40), `STATUS` (O7), and
which operation may change the configuration, the two controllers' states and the counters (O42 to O46). -/

namespace Sys2Proof.Machine

/-! ## What an operation can do

`Effect i s t`: one constructor per way in which operation `i` takes `s` to `t`, with the conditions under which it
does. `exec_effect` ties it to `exec`; the proofs about all operations below go through it and unfold no operation. -/

/-- Operation `i` takes `s` to `t`. -/
inductive Effect : Instr → State → State → Prop
  /-- A host command that only answers: a refusal (R103), a read, a codec command. -/
  | answers {i : Instr} {s : State} (hPort : portOf i = some .cmd) (w : TailedWord) :
      Effect i s { s with out := { s.out with rsp := s.out.rsp ++ [w] } }
  /-- R100: the guard does not hold (log 4). -/
  | waits {i : Instr} {s : State} (hReady : ready i s = false) : Effect i s s
  /-- R282 -/
  | resets (aux : BitVec 8) (p : Bits) (s : State) : Effect (.reset aux p) s (respond .ok false [] (resetCore s))
  /-- R340 -/
  | resetsHard (s : State) :
      Effect .rst s { resetCore s with env := { s.env with cmdIn := [] } }
  /-- R283 -/
  | configures (aux : BitVec 8) (p : Bits) (r : Reg) {s : State} (hQuiet : quiescent s = true) :
      Effect (.cfgWr aux p) s (respond .ok false [] (cbClear { s with cfg := writeCfg r (bitsVal p) s.cfg }))
  /-- R285, with `cfg_ok` -/
  | starts (aux : BitVec 8) (p : Bits) {s : State} (hQuiet : quiescent s = true) (hCfg : cfgOk s.cfg = true) :
      Effect (.sessionStart aux p) s (respond .ok false [] (startSession s))
  /-- R285, without `cfg_ok` -/
  | failsToStart (aux : BitVec 8) (p : Bits) (s : State) :
      Effect (.sessionStart aux p) s (refuse .configViolation { s with cfgErr := true })
  /-- R286 -/
  | ends (aux : BitVec 8) (p : Bits) {s : State} (hIdle : s.tx.state = .idle) :
      Effect (.sessionEnd aux p) s (respond .ok false [] { s with run := false })
  /-- R204 -/
  | combines (aux : BitVec 8) (p data : Bits) {s : State} (hRule : ruleOk s.cfg = true) :
      Effect (.cbCombine aux p) s
        (respond .ok false data (cbCommit (combine s.cfg.combRule (frameW s.cfg) s.cb.acc p).1 s))
  /-- R205 -/
  | clears (aux : BitVec 8) (p : Bits) (s : State) :
      Effect (.cbClear aux p) s (respond .ok false [] (cbClear s))
  /-- R222 -/
  | pushes (aux : BitVec 8) (p : Bits) {s : State} (hRun : s.run = true) (hIdle : s.tx.state = .idle)
      (hLen : p.length = dataK s.cfg.variant) :
      Effect (.pktPush aux p) s
        (respond .ok false [] { s with tx := { s.tx with pay := p, attempts := 0, state := .encoding } })
  /-- R251: the buffer is left, or cleared under the frame's tag. -/
  | accepts (seq : SeqNum) (flen : BitVec 8) (bits : Bits) {cb : Cb} {s : State} (hRun : s.run = true)
      (hWait : s.rx.state = .waitingFrame)
      (hCb : cb = s.cb ∨ cb = { acc := List.replicate Config.cbCells 0, empty := true, seq := seq, cnt := 0 }) :
      Effect (.frmIn seq flen bits) s
        { s with
          cb := cb
          rx := { s.rx with frm := bits, len := flen, seq := seq, state := .decoding }
          rxCnt := { s.rxCnt with rxframes := s.rxCnt.rxframes + 1 } }
  /-- R252 -/
  | loses {s : State} (hRun : s.run = true) (hWait : s.rx.state = .waitingFrame) : Effect .frmLost s (loseFrame s)
  /-- R225 -/
  | acks {s : State} (hWait : s.tx.state = .awaitingAck) : Effect (.ctlAck s.tx.seq) s (takeAck s)
  /-- R228 -/
  | nacks {s : State} (hWait : s.tx.state = .awaitingAck) : Effect (.ctlNack s.tx.seq) s (txFail s)
  /-- R223 -/
  | ignores {i : Instr} {seq : SeqNum} {s : State} (hi : i = .ctlAck seq ∨ i = .ctlNack seq)
      (hWait : s.tx.state = .awaitingAck) (hSeq : seq ≠ s.tx.seq) : Effect i s (ctlStale s)
  /-- R226, before the deadline or without one -/
  | ticks {s : State} (hNot : ¬ (s.tx.state = .awaitingAck ∧ s.tx.time + 1 = s.tx.deadline)) :
      Effect .tick s { s with tx := { s.tx with time := s.tx.time + 1 } }
  /-- R226, at the deadline -/
  | expires {s : State} (hWait : s.tx.state = .awaitingAck) (hDeadline : s.tx.time + 1 = s.tx.deadline) :
      Effect .tick s
        (txFail
          { s with
            tx := { s.tx with time := s.tx.time + 1 }
            txCnt := { s.txCnt with timeout := s.txCnt.timeout + 1 } })
  /-- R224 -/
  | sends {s : State} (hReady : s.tx.state = .encoding ∨ s.tx.state = .retrying) : Effect .txSend s (sendFrame s)
  /-- R229 -/
  | advances {s : State} (hReady : s.tx.state = .acked ∨ s.tx.state = .exhausted) : Effect .txAdvance s (advance s)
  /-- R253, result `OK` -/
  | validates (cor : Bool) (data : Bits) {s : State} (hDec : s.rx.state = .decoding) :
      Effect .rxDecode s
        (rxRecord .ok cor data .validatedAck
          (cbClear { s with rxCnt := { s.rxCnt with valid := s.rxCnt.valid + 1 } }))
  /-- R253, result `MalformedFrame` -/
  | findsMalformed (cor : Bool) {s : State} (hDec : s.rx.state = .decoding) :
      Effect .rxDecode s
        (rxRecord .malformedFrame cor [] .invalidatedNack
          { s with rxCnt := { s.rxCnt with malformed := s.rxCnt.malformed + 1 } })
  /-- R253, result `InvalidSyndrome` -/
  | findsSyndrome (cor : Bool) {s : State} (hDec : s.rx.state = .decoding) :
      Effect .rxDecode s
        (rxRecord .invalidSyndrome cor [] .invalidatedNack
          { s with rxCnt := { s.rxCnt with synfail := s.rxCnt.synfail + 1 } })
  /-- R253, result `CrcMismatch`: the reception `d` is combined and committed (R256). -/
  | findsMismatch (cor : Bool) (d : Bits) {s : State} (hDec : s.rx.state = .decoding) :
      Effect .rxDecode s
        (rxRecord .crcMismatch cor [] .invalidatedNack
          (cbCommit (combine s.cfg.combRule (frameW s.cfg) s.cb.acc d).1
            { s with rxCnt := { s.rxCnt with crcfail := s.rxCnt.crcfail + 1 } }))
  /-- R254 -/
  | responds (ack : Bool) {s : State} (hReady : s.rx.state = .validatedAck ∨ s.rx.state = .invalidatedNack) :
      Effect .rxRespond s (rxEmitControl ack s)

/-- A command refuses, which only answers, or does what it does when every check holds. -/
theorem effect_of_runCommand {i : Instr} {cs : List (Bool × Cond)} {d s t : State}
    (h : runCommand cs d s = .next t) (hPort : portOf i = some .cmd)
    (hDone : (∀ c ∈ cs, c.1 = true) → Effect i s d) : Effect i s t := by
  rcases runCommand_cases h with ⟨rfl, hChecks⟩ | ⟨c, _, _, rfl⟩
  · exact hDone hChecks
  · exact .answers hPort _

/-- A guarded operation waits, or does what it does under its guard. -/
theorem effect_of_guarded {i : Instr} {effect s t : State}
    (h : (.next (if ready i s then effect else s) : Result) = .next t)
    (hDone : ready i s = true → Effect i s effect) : Effect i s t := by
  cases hReady : ready i s with
  | true =>
    rw [hReady] at h
    cases h
    exact hDone hReady
  | false =>
    rw [hReady] at h
    cases h
    exact .waits hReady

theorem effect_of_execCfgWr {aux : BitVec 8} {p : Bits} {s t : State} (h : execCfgWr aux p s = .next t) :
    Effect (.cfgWr aux p) s t := by
  unfold execCfgWr at h
  split at h
  · exact effect_of_runCommand h rfl fun hChecks => by simp at hChecks
  · exact effect_of_runCommand h rfl fun hChecks => .configures aux p _ (hChecks (quiescent s, .busy) (by simp))

theorem effect_of_execCfgRd {aux : BitVec 8} {p : Bits} {s t : State} (h : execCfgRd aux p s = .next t) :
    Effect (.cfgRd aux p) s t := by
  unfold execCfgRd at h
  split at h
  · exact effect_of_runCommand h rfl fun hChecks => by simp at hChecks
  · exact effect_of_runCommand h rfl fun _ => .answers rfl _

theorem effect_of_execSessionStart {aux : BitVec 8} {p : Bits} {s t : State}
    (h : execSessionStart aux p s = .next t) : Effect (.sessionStart aux p) s t := by
  refine effect_of_runCommand h rfl fun hChecks => ?_
  split
  · exact .starts aux p (hChecks (quiescent s, .busy) (by simp)) ‹_›
  · exact .failsToStart aux p s

theorem effect_of_execHamDec {aux : BitVec 8} {p : Bits} {s t : State} (h : execHamDec aux p s = .next t) :
    Effect (.hamDec aux p) s t := by
  refine effect_of_runCommand h rfl fun _ => ?_
  unfold respondHamDec
  split
  · exact .answers rfl _
  · exact .answers rfl _

theorem effect_of_execTick {s t : State} (h : execTick s = .next t) : Effect .tick s t := by
  unfold execTick at h
  cases h
  split
  · next hExp =>
    simp only [tickExpires, Bool.and_eq_true, decide_eq_true_eq] at hExp
    exact .expires hExp.1 hExp.2
  · next hExp =>
    simp only [tickExpires, Bool.and_eq_true, decide_eq_true_eq] at hExp
    exact .ticks hExp

theorem effect_of_acceptFrame (seq : SeqNum) (flen : BitVec 8) (bits : Bits) {s : State} (hRun : s.run = true)
    (hWait : s.rx.state = .waitingFrame) : Effect (.frmIn seq flen bits) s (acceptFrame seq flen bits s) := by
  rcases cbRetag_cases seq s with ⟨_, hRetag⟩ | ⟨_, hRetag⟩
  · rw [acceptFrame, hRetag]
    exact .accepts seq flen bits hRun hWait (.inl rfl)
  · rw [acceptFrame, hRetag]
    exact .accepts seq flen bits hRun hWait (.inr rfl)

/-- The cells that a CRC mismatch commits are the combined ones (R255). -/
theorem rxProcess_acc_of_crcMismatch {c : Cfg} {f : Bits} {acc : List AccCell}
    (h : (rxProcess c f acc).code = .crcMismatch) :
    (rxProcess c f acc).acc = (combine c.combRule (frameW c) acc (dilv f Config.ilvMPipe)).1 := by
  unfold rxProcess at h ⊢
  dsimp only at h ⊢
  split
  · simp only [if_pos ‹_›] at h
    split at h
    · cases h
    · split at h
      · cases h
      · simp only [if_neg ‹_›]
  · simp only [if_neg ‹_›] at h
    cases h

theorem effect_of_decodeFrame {s : State} (hDec : s.rx.state = .decoding) : Effect .rxDecode s (decodeFrame s) := by
  rcases rxProcess_code s.cfg (s.rx.frm.take s.rx.len.toNat) s.cb.acc with hOk | ⟨hMal, _⟩ | ⟨hSyn, _⟩ | hCrc
  · simp only [decodeFrame, applyResult, hOk]
    exact .validates _ _ hDec
  · simp only [decodeFrame, applyResult, hMal]
    exact .findsMalformed _ hDec
  · simp only [decodeFrame, applyResult, hSyn]
    exact .findsSyndrome _ hDec
  · simp only [decodeFrame, applyResult, hCrc, rxProcess_acc_of_crcMismatch hCrc]
    exact .findsMismatch _ _ hDec

/-- What `exec` does is one of the effects. -/
theorem exec_effect {i : Instr} {s t : State} (h : exec i s = .next t) : Effect i s t := by
  cases i
  case reset aux p => exact effect_of_runCommand h rfl fun _ => .resets aux p s
  case cfgWr aux p => exact effect_of_execCfgWr h
  case cfgRd aux p => exact effect_of_execCfgRd h
  case sessionStart aux p => exact effect_of_execSessionStart h
  case sessionEnd aux p =>
    refine effect_of_runCommand h rfl fun hChecks => .ends aux p ?_
    simpa using hChecks (decide (s.tx.state = .idle), .busy) (by simp)
  case hamDec aux p => exact effect_of_execHamDec h
  case cbCombine aux p =>
    refine effect_of_runCommand h rfl fun hChecks => .combines aux p _ ?_
    have hCfg := hChecks (genOk s.cfg && ruleOk s.cfg, .configViolation) (by simp)
    exact (Bool.and_eq_true_iff.1 hCfg).2
  case cbClear aux p => exact effect_of_runCommand h rfl fun _ => .clears aux p s
  case pktPush aux p =>
    refine effect_of_runCommand h rfl fun hChecks => ?_
    simp only [List.forall_mem_cons, Bool.and_eq_true, decide_eq_true_eq] at hChecks
    obtain ⟨⟨hRun, hIdle⟩, _, hLen, _⟩ := hChecks
    exact .pushes aux p hRun hIdle hLen
  case frmIn seq flen bits =>
    refine effect_of_guarded h fun hReady => ?_
    obtain ⟨hRun, hWait⟩ := (frmReady_iff s).1 hReady
    exact effect_of_acceptFrame seq flen bits hRun hWait
  case frmLost =>
    refine effect_of_guarded h fun hReady => ?_
    obtain ⟨hRun, hWait⟩ := (frmReady_iff s).1 hReady
    exact .loses hRun hWait
  case ctlAck seq =>
    refine effect_of_guarded h fun hReady => ?_
    have hWait := (ctlReadyToTake_iff s).1 hReady
    split
    · next hSeq => exact hSeq ▸ .acks hWait
    · next hSeq => exact .ignores (.inl rfl) hWait hSeq
  case ctlNack seq =>
    refine effect_of_guarded h fun hReady => ?_
    have hWait := (ctlReadyToTake_iff s).1 hReady
    split
    · next hSeq => exact hSeq ▸ .nacks hWait
    · next hSeq => exact .ignores (.inr rfl) hWait hSeq
  case tick => exact effect_of_execTick h
  case rst =>
    cases h
    exact .resetsHard s
  case txSend => exact effect_of_guarded h fun hReady => .sends ((txSendReady_iff s).1 hReady)
  case txAdvance => exact effect_of_guarded h fun hReady => .advances ((txAdvanceReady_iff s).1 hReady)
  case rxDecode => exact effect_of_guarded h fun hReady => effect_of_decodeFrame ((rxDecodeReady_iff s).1 hReady)
  case rxRespond => exact effect_of_guarded h fun hReady => .responds _ ((rxRespondReady_iff s).1 hReady)
  all_goals exact effect_of_runCommand h rfl fun _ => .answers rfl _

/-! ## The invariant in three parts

`CoreInv` speaks of the buffer, of the sender and of the configuration; an operation touches one of them at a time. -/

/-- R42 (c), (d), (e) and R36, of a buffer under a configuration. -/
def BufferInv (c : Cfg) (b : Cb) : Prop :=
  (b.empty = true → b.cnt = 0 ∧ ∀ a ∈ b.acc, a = 0) ∧
    (∀ i < Config.cbCells, frameW c ≤ i → b.acc.getD i 0 = 0) ∧
    (c.combRule = 0 → ∀ a ∈ b.acc, a = 0 ∨ a = 1) ∧
    b.acc.length = Config.cbCells ∧ ∀ a ∈ b.acc, -127 ≤ a.toInt

/-- R42 (a), (b), (f) and R222, of a sender under a configuration and `RUN`. -/
def SenderInv (c : Cfg) (run : Bool) (x : Tx) : Prop :=
  x.outstanding = decide (x.state = .awaitingAck) ∧
    (x.attempts ≤ c.maxAtt ∧
      (x.state = .encoding ∨ x.state = .awaitingAck ∨ x.state = .retrying → x.attempts < c.maxAtt) ∧
      (x.state = .exhausted → x.attempts = c.maxAtt) ∧ (x.state = .idle → x.attempts = 0)) ∧
    (run = false → x.state = .idle) ∧ (x.state ≠ .idle → x.pay.length = dataK c.variant)

/-- R21, R280 (b): a session and a receiver at work have a legal configuration. -/
def LegalInv (c : Cfg) (run : Bool) (x : RxState) : Prop := run = true ∨ x ≠ .waitingFrame → cfgOk c = true

/-- R42 (g) holds of every state: the type `TxState` has no code 6 or 7. -/
theorem txCodeInv (s : State) : TxCodeInv s := by
  unfold TxCodeInv
  cases s.tx.state <;> decide

theorem coreInv_iff (s : State) :
    CoreInv s ↔ BufferInv s.cfg s.cb ∧ SenderInv s.cfg s.run s.tx ∧ LegalInv s.cfg s.run s.rx.state := by
  constructor
  · rintro ⟨⟨hOut, hAtt, hEmpty, hUnused, hOr, hRun, _⟩, hLen, hCells, hLegal, hPay⟩
    exact ⟨⟨hEmpty, hUnused, hOr, hLen, hCells⟩, ⟨hOut, hAtt, hRun, hPay⟩, hLegal⟩
  · rintro ⟨⟨hEmpty, hUnused, hOr, hLen, hCells⟩, ⟨hOut, hAtt, hRun, hPay⟩, hLegal⟩
    exact ⟨⟨hOut, hAtt, hEmpty, hUnused, hOr, hRun, txCodeInv s⟩, hLen, hCells, hLegal, hPay⟩

/-! ### The buffer -/

/-- A cleared buffer has its invariant under every configuration and tag (R201). -/
theorem bufferInv_cleared (c : Cfg) (seq : SeqNum) :
    BufferInv c { acc := List.replicate Config.cbCells 0, empty := true, seq := seq, cnt := 0 } := by
  have hZero : ∀ a ∈ List.replicate Config.cbCells (0 : AccCell), a = 0 := fun _ => List.eq_of_mem_replicate
  refine ⟨fun _ => ⟨rfl, hZero⟩, fun i hi _ => List.getD_replicate 0 hi, fun _ a ha => .inl (hZero a ha),
    List.length_replicate, fun a ha => ?_⟩
  rw [hZero a ha]
  decide

theorem length_commitCells (w : Nat) (acc' acc : List AccCell) :
    (commitCells w acc' acc).length = Config.cbCells := by
  simp [commitCells]

/-- Cell `i` after a commit (R203). -/
theorem getD_commitCells (w : Nat) (acc' acc : List AccCell) {i : Nat} (hi : i < Config.cbCells) :
    (commitCells w acc' acc).getD i 0 = if i < w then acc'.getD i 0 else acc.getD i 0 := by
  simp [commitCells, List.getD_eq_getElem?_getD, hi]

/-- Cell `i` after a reception (R202). -/
theorem getD_combine (rule : BitVec 2) (acc : List AccCell) (d : Bits) {w i : Nat} (hi : i < w) :
    (combine rule w acc d).1.getD i 0 = (combineCell rule (acc.getD i 0) (d.getD i false)).1 := by
  simp [combine, List.getD_eq_getElem?_getD, hi]

/-- What holds of 0 and of every cell holds of a cell read at any index: beyond the end 0 is read. -/
theorem getD_induction {P : AccCell → Prop} {acc : List AccCell} (hZero : P 0) (hAcc : ∀ a ∈ acc, P a) (i : Nat) :
    P (acc.getD i 0) := by
  rcases Nat.lt_or_ge i acc.length with hi | hi
  · rw [List.getD_eq_getElem _ _ hi]
    exact hAcc _ (List.getElem_mem hi)
  · rw [List.getD_eq_default _ _ hi]
    exact hZero

/-- What holds of 0 and is kept by combining a bit into a cell holds of every cell after a committed reception. -/
theorem forall_mem_commitCells_combine {P : AccCell → Prop} {rule : BitVec 2} {acc : List AccCell} (w : Nat) (d : Bits)
    (hZero : P 0) (hAcc : ∀ a ∈ acc, P a) (hCombine : ∀ a b, P a → P (combineCell rule a b).1) :
    ∀ a ∈ commitCells w (combine rule w acc d).1 acc, P a := by
  intro a ha
  obtain ⟨i, hi, rfl⟩ := List.mem_iff_getElem.1 ha
  rw [← List.getD_eq_getElem _ 0 hi, getD_commitCells _ _ _ (length_commitCells _ _ _ ▸ hi)]
  split
  · rw [getD_combine _ _ _ ‹_›]
    exact hCombine _ _ (getD_induction hZero hAcc i)
  · exact getD_induction hZero hAcc i

/-- R42 (e): rule OR makes cells 0 and 1 of cells 0 and 1. -/
theorem combineCell_zero_or_one (a : AccCell) (b : Bool) (h : a = 0 ∨ a = 1) :
    (combineCell 0 a b).1 = 0 ∨ (combineCell 0 a b).1 = 1 := by
  rcases h with rfl | rfl <;> cases b <;> decide

/-- R36: neither defined rule makes a cell -128. -/
theorem le_toInt_combineCell {rule : BitVec 2} (hRule : rule.toNat ≤ 1) (a : AccCell) (b : Bool)
    (h : -127 ≤ a.toInt) : -127 ≤ (combineCell rule a b).1.toInt := by
  have hMax : a.toInt < 2 ^ 7 := BitVec.toInt_lt
  unfold combineCell
  split
  · rw [combineOr, BitVec.toInt_ofInt_eq_self (by decide) (by split <;> omega) (by split <;> omega)]
    exact le_max_of_le_left h
  · split
    · rw [combineMaj, sat8, BitVec.toInt_ofInt_eq_self (by decide) (by omega) (by omega)]
      exact le_max_left _ _
    · have hNot : rule ≠ 0 ∧ rule ≠ 1 := ⟨‹_›, ‹_›⟩
      bv_omega

/-- A committed reception keeps the buffer's invariant under a defined rule (R202, R203). -/
theorem bufferInv_committed {c : Cfg} {b : Cb} (d : Bits) (cnt : BitVec 8) (h : BufferInv c b)
    (hRule : ruleOk c = true) :
    BufferInv c
      { b with acc := commitCells (frameW c) (combine c.combRule (frameW c) b.acc d).1 b.acc, cnt := cnt,
               empty := false } := by
  obtain ⟨_, hUnused, hOr, _, hCells⟩ := h
  refine ⟨fun hEmpty => absurd hEmpty Bool.false_ne_true, fun i hi hw => ?unused, fun hZero => ?or,
    length_commitCells _ _ _, ?cells⟩
  case unused =>
    rw [getD_commitCells _ _ _ hi, if_neg (Nat.not_lt.2 hw)]
    exact hUnused i hi hw
  case or =>
    exact forall_mem_commitCells_combine _ d (.inl rfl) (hOr hZero) (hZero ▸ combineCell_zero_or_one)
  case cells =>
    exact forall_mem_commitCells_combine _ d (by decide) hCells (le_toInt_combineCell (of_decide_eq_true hRule))

/-! ### The sender -/

/-- A sender at rest with no attempt on record has its invariant under every configuration. -/
theorem senderInv_idle {x : Tx} (c : Cfg) (run : Bool) (hOut : x.outstanding = false) (hIdle : x.state = .idle)
    (hAtt : x.attempts = 0) : SenderInv c run x := by
  simp [SenderInv, hOut, hIdle, hAtt, BitVec.le_def]

/-- A sender with an attempt left has its invariant in every state but the two that say there is none. -/
theorem senderInv_working {c : Cfg} {run : Bool} {x : Tx} (hOut : x.outstanding = decide (x.state = .awaitingAck))
    (hIdle : x.state ≠ .idle) (hExh : x.state ≠ .exhausted) (hRun : run = true) (hAtt : x.attempts < c.maxAtt)
    (hPay : x.pay.length = dataK c.variant) : SenderInv c run x :=
  ⟨hOut, ⟨BitVec.le_of_lt hAtt, fun _ => hAtt, fun h => absurd h hExh, fun h => absurd h hIdle⟩,
    fun h => absurd (hRun.symm.trans h) (by decide), fun _ => hPay⟩

theorem SenderInv.outstanding_eq_false {c : Cfg} {run : Bool} {x : Tx} (h : SenderInv c run x)
    (hState : x.state ≠ .awaitingAck) : x.outstanding = false := h.1.trans (decide_eq_false hState)

/-- At rest neither `RUN` nor the configuration matters to the sender. -/
theorem SenderInv.of_idle {c : Cfg} {run : Bool} {x : Tx} (h : SenderInv c run x) (hIdle : x.state = .idle)
    (c' : Cfg) (run' : Bool) : SenderInv c' run' x := by
  obtain ⟨hOut, ⟨_, _, _, hZero⟩, _, _⟩ := h
  exact senderInv_idle c' run' (hOut.trans (by simp [hIdle])) hIdle (hZero hIdle)

/-- While a packet is transmitted a session is in progress, an attempt is left and the packet has `K` bits. -/
theorem SenderInv.of_working {c : Cfg} {run : Bool} {x : Tx} (h : SenderInv c run x)
    (hState : x.state = .encoding ∨ x.state = .awaitingAck ∨ x.state = .retrying) :
    run = true ∧ x.attempts < c.maxAtt ∧ x.pay.length = dataK c.variant := by
  obtain ⟨_, ⟨_, hAtt, _, _⟩, hRun, hPay⟩ := h
  have hIdle : x.state ≠ .idle := by
    rcases hState with h | h | h <;> simp [h]
  exact ⟨Bool.eq_true_of_not_eq_false (mt hRun hIdle), hAtt hState, hPay hIdle⟩

/-- The two ways a transmission fails (R227). -/
theorem txFail_cases (s : State) :
    (s.tx.attempts + 1 < s.cfg.maxAtt ∧
      txFail s =
        { s with tx := { s.tx with outstanding := false, attempts := s.tx.attempts + 1, state := .retrying } }) ∨
    (¬ s.tx.attempts + 1 < s.cfg.maxAtt ∧
      txFail s =
        { s with
          tx := { s.tx with outstanding := false, attempts := s.tx.attempts + 1, state := .exhausted }
          txCnt := { s.txCnt with exhausted := s.txCnt.exhausted + 1 } }) := by
  rw [txFail_eq, withFailure]
  split
  · exact .inl ⟨‹_›, rfl⟩
  · exact .inr ⟨‹_›, rfl⟩

theorem txFail_cfg (s : State) : (txFail s).cfg = s.cfg := (txFail_frame s).1

theorem txFail_rx (s : State) : (txFail s).rx = s.rx := by
  obtain ⟨_, _, _, hRx, _⟩ := txFail_frame s
  exact hRx

theorem txFail_rxCnt (s : State) : (txFail s).rxCnt = s.rxCnt := by
  obtain ⟨_, _, _, _, _, hCnt, _⟩ := txFail_frame s
  exact hCnt

/-- A failed transmission keeps the sender's invariant: the last attempt ends in `Exhausted` (R227). -/
theorem senderInv_txFail {s : State} (h : SenderInv s.cfg s.run s.tx) (hWait : s.tx.state = .awaitingAck) :
    SenderInv s.cfg s.run (txFail s).tx := by
  obtain ⟨hRun, hAtt, hPay⟩ := h.of_working (.inr (.inl hWait))
  rcases txFail_cases s with ⟨hLeft, hFail⟩ | ⟨hNone, hFail⟩
  · rw [hFail]
    exact senderInv_working rfl nofun nofun hRun hLeft hPay
  · have hMax : s.tx.attempts + 1 = s.cfg.maxAtt := by bv_omega
    rw [hFail]
    exact ⟨rfl, ⟨BitVec.le_of_eq hMax, nofun, fun _ => hMax, nofun⟩,
      fun hEnd => absurd (hRun.symm.trans hEnd) (by decide), fun _ => hPay⟩

/-! ### Every operation -/

/-- A quiescent block has no session and both controllers at rest (R30). -/
theorem quiescent_iff (s : State) :
    quiescent s = true ↔ s.run = false ∧ s.tx.state = .idle ∧ s.rx.state = .waitingFrame := by
  simp [quiescent, and_assoc]

/-- R28: a legal configuration has a defined rule and grants an attempt. -/
theorem ruleOk_of_cfgOk {c : Cfg} (h : cfgOk c = true) : ruleOk c = true := (Bool.and_eq_true_iff.1 h).2

theorem maxAtt_pos_of_cfgOk {c : Cfg} (h : cfgOk c = true) : 0 < c.maxAtt := by
  simp only [cfgOk, Bool.and_eq_true, decide_eq_true_eq] at h
  obtain ⟨⟨_, hMax⟩, _⟩ := h
  bv_omega

/-- The elements that reset writes have the invariant, whatever the counters and the link hold. -/
theorem coreInv_of_reset_values {s : State} (hCfg : s.cfg = Cfg.reset) (hRun : s.run = false) (hTx : s.tx = Tx.reset)
    (hRx : s.rx = Rx.reset) (hCb : s.cb = Cb.reset) : CoreInv s := by
  rw [coreInv_iff, hCfg, hRun, hTx, hRx, hCb]
  exact ⟨bufferInv_cleared _ _, senderInv_idle _ _ rfl rfl rfl, fun h => by simp [Rx.reset] at h⟩

theorem coreInv_txFail {s : State} (h : CoreInv s) (hWait : s.tx.state = .awaitingAck) : CoreInv (txFail s) := by
  obtain ⟨hBuf, hSend, hLegal⟩ := (coreInv_iff s).1 h
  obtain ⟨hCfg, hRun, _, hRx, hCb, _⟩ := txFail_frame s
  rw [coreInv_iff, hCfg, hRun, hRx, hCb]
  exact ⟨hBuf, senderInv_txFail hSend hWait, hLegal⟩

/-- Every effect keeps the invariant. -/
theorem coreInv_of_effect {i : Instr} {s t : State} (hEffect : Effect i s t) (h : CoreInv s) : CoreInv t := by
  obtain ⟨hBuf, hSend, hLegal⟩ := (coreInv_iff s).1 h
  cases hEffect
  case resets | resetsHard => exact coreInv_of_reset_values rfl rfl rfl rfl rfl
  case nacks hWait => exact coreInv_txFail h hWait
  case expires hWait _ => exact coreInv_txFail (s := { s with tx := _, txCnt := _ }) h hWait
  all_goals refine (coreInv_iff _).2 ?_
  case configures aux p r hQuiet =>
    obtain ⟨hRun, hIdle, hWait⟩ := (quiescent_iff s).1 hQuiet
    refine ⟨bufferInv_cleared _ _, hSend.of_idle hIdle _ _, fun hWork => ?_⟩
    simp [hRun, hWait] at hWork
  case starts aux p hQuiet hCfg =>
    obtain ⟨_, hIdle, _⟩ := (quiescent_iff s).1 hQuiet
    exact ⟨bufferInv_cleared _ _, senderInv_idle _ _ rfl hIdle rfl, fun _ => hCfg⟩
  case ends aux p hIdle =>
    exact ⟨hBuf, hSend.of_idle hIdle _ _, fun hWork => hLegal (.inr (by simpa using hWork))⟩
  case combines aux p data hRule => exact ⟨bufferInv_committed p _ hBuf hRule, hSend, hLegal⟩
  case clears => exact ⟨bufferInv_cleared _ _, hSend, hLegal⟩
  case pushes aux p hRun hIdle hLen =>
    exact ⟨hBuf, senderInv_working (hSend.outstanding_eq_false (by simp [hIdle])) nofun nofun hRun
      (maxAtt_pos_of_cfgOk (hLegal (.inl hRun))) hLen, hLegal⟩
  case accepts seq flen bits cb hRun hWait hCb =>
    refine ⟨?_, hSend, fun _ => hLegal (.inl hRun)⟩
    rcases hCb with rfl | rfl
    · exact hBuf
    · exact bufferInv_cleared _ _
  case acks hWait =>
    obtain ⟨hRun, hAtt, hPay⟩ := hSend.of_working (.inr (.inl hWait))
    exact ⟨hBuf, senderInv_working rfl nofun nofun hRun hAtt hPay, hLegal⟩
  case sends hReady =>
    obtain ⟨hRun, hAtt, hPay⟩ := hSend.of_working (hReady.imp_right .inr)
    exact ⟨hBuf, senderInv_working rfl nofun nofun hRun hAtt hPay, hLegal⟩
  case advances hReady =>
    have hNotWaiting : s.tx.state ≠ .awaitingAck := by
      rcases hReady with h | h <;> simp [h]
    exact ⟨hBuf, senderInv_idle _ _ (hSend.outstanding_eq_false hNotWaiting) rfl rfl, hLegal⟩
  case validates cor data hDec => exact ⟨bufferInv_cleared _ _, hSend, fun _ => hLegal (.inr (by simp [hDec]))⟩
  case findsMalformed hDec | findsSyndrome hDec => exact ⟨hBuf, hSend, fun _ => hLegal (.inr (by simp [hDec]))⟩
  case findsMismatch cor d hDec =>
    have hCfg := hLegal (.inr (by simp [hDec]))
    exact ⟨bufferInv_committed d _ hBuf (ruleOk_of_cfgOk hCfg), hSend, fun _ => hCfg⟩
  case responds ack hReady => exact ⟨hBuf, hSend, fun hWork => hLegal (.inl (by simpa using hWork))⟩
  all_goals exact ⟨hBuf, hSend, hLegal⟩

/-! ## Reset, every step, every run (R41, R42) -/

/-- Settles O38: the reset state is at its reset values. -/
theorem invHoldsAtReset : Obligations.InvHoldsAtReset := coreInv_of_reset_values rfl rfl rfl rfl rfl

/-- Settles O39: a fetch moves the link alone (`fetch_env`), of which the invariant does not speak, and what is fetched
is one of the effects. -/
theorem everyStepKeepsInv : Obligations.EveryStepKeepsInv := by
  intro s t hInv hStep
  rcases fetch_env s with ⟨i, e, hFetch⟩ | ⟨e, hFetch⟩ | ⟨e, hFetch⟩
  all_goals
    have hLinked : CoreInv { s with env := e } := hInv
    rw [step, hFetch] at hStep
  · exact coreInv_of_effect (exec_effect hStep) hLinked
  · cases hStep
    exact hLinked
  · cases hStep
    exact hLinked

/-- What every step keeps, every run keeps. -/
theorem invariant_of_run {M : Host.Core} {P : M.State → Prop} (hStep : ∀ s t, P s → M.step s = .next t → P t)
    {n : Nat} {s t : M.State} (hStart : P s) (hRun : M.run n s = .next t) : P t := by
  induction n generalizing s with
  | zero =>
    cases hRun
    exact hStart
  | succ n ih =>
    unfold Host.Core.run at hRun
    split at hRun
    · next u hNext => exact ih (hStep s u hStart hNext) hRun
    · cases hRun
    · cases hRun

/-- Settles O40: what is presented, in flight and to come is in `env`, of which the invariant does not speak. -/
theorem reachableStatesKeepTheSpecInvariants : Obligations.ReachableStatesKeepTheSpecInvariants := by
  intro e n t hRun
  have hStart : CoreInv { State.reset with env := e } := coreInv_of_reset_values rfl rfl rfl rfl rfl
  exact (invariant_of_run (M := core) everyStepKeepsInv hStart hRun).1

/-- Every row of R41's table is read off the core's elements, whatever the link holds. -/
theorem atReset_with_link (e : Env) (o : Out) : AtReset { State.reset with env := e, out := o } := by
  have hStatus : statusWord State.reset = 0 := by decide
  exact ⟨rfl, rfl, rfl, rfl, rfl, rfl, rfl, rfl, rfl, rfl, rfl, rfl, rfl, rfl, rfl, rfl, rfl, rfl, rfl, rfl, rfl, rfl,
    hStatus⟩

/-- Settles O1: the two ways to reset leave `State.reset` but for the link. -/
theorem resetLeavesTheTable : Obligations.ResetLeavesTheTable :=
  ⟨atReset_with_link _ _, fun _ => ⟨_, rfl, atReset_with_link _ _⟩, fun _ _ => ⟨_, rfl, atReset_with_link _ _⟩⟩

/-! ## `STATUS` (R29) -/

/-- A field in front of `w` bits stands at place `2 ^ w`. -/
theorem toNat_append_eq_add {v w : Nat} (x : BitVec v) (y : BitVec w) :
    (x ++ y).toNat = x.toNat * 2 ^ w + y.toNat := by
  rw [BitVec.toNat_append, ← Nat.shiftLeft_add_eq_or_of_lt y.isLt, Nat.shiftLeft_eq]

/-- The fields of `STATUS` are at their places. -/
theorem statusWord_toNat (s : State) : (statusWord s).toNat = statusValue s := by
  have hTx := (txCode s.tx.state).isLt
  have hRx := (rxCode s.rx.state).isLt
  have hErr := (condCode s.rx.lastErr).isLt
  simp only [statusWord, statusValue, toNat_append_eq_add, BitVec.toNat_ofBool, BitVec.ofNat_eq_ofNat,
    BitVec.toNat_ofNat]
  omega

theorem statusValue_lt (s : State) : statusValue s < 2 ^ 16 := by
  have hTx := (txCode s.tx.state).isLt
  have hRx := (rxCode s.rx.state).isLt
  have hErr := (condCode s.rx.lastErr).isLt
  have hBit := Bool.toNat_lt
  have hRun := hBit s.run
  have hOut := hBit s.tx.outstanding
  have hBuf := hBit (!s.cb.empty)
  have hCfg := hBit s.cfgErr
  have hOvf := hBit s.tx.seqOvf
  unfold statusValue
  omega

/-- Settles O7; index 0x10 is the register `STATUS`, which no command writes. -/
theorem statusAssemblesTheFlags : Obligations.StatusAssemblesTheFlags := by
  intro s
  refine ⟨statusWord_toNat s, statusValue_lt s, fun p hQuiet => ?_⟩
  have hWrite : exec (.cfgWr 0x10 p) s = .next (refuse .readOnly s) := by
    change runCommand [(quiescent s, .busy), (false, .readOnly), _] _ s = _
    rw [hQuiet]
    rfl
  rw [hWrite, refuse_eq_answered]
  rfl

/-! ## What may change, and by which operation -/

/-- Settles O42, effect by effect: three of them write the configuration. -/
theorem configurationChangesOnlyWhenQuiescent : Obligations.ConfigurationChangesOnlyWhenQuiescent := by
  intro i s t h
  cases exec_effect h
  case configures aux p r hQuiet => exact .inr (.inl ⟨aux, p, rfl, hQuiet⟩)
  case resets aux p => exact .inr (.inr (.inl ⟨aux, p, rfl⟩))
  case resetsHard => exact .inr (.inr (.inr rfl))
  case nacks | expires => exact .inl (txFail_cfg _)
  all_goals exact .inl rfl

/-- Settles O43, transition by transition. -/
theorem senderTakesOnlyItsTransitions : Obligations.SenderTakesOnlyItsTransitions := by
  refine ⟨⟨rfl, rfl, rfl, rfl, rfl, rfl, rfl⟩, fun i s t h hChange => ?_⟩
  cases exec_effect h
  case pushes aux p _ hIdle _ => exact .inl ⟨hIdle, rfl, aux, p, rfl⟩
  case sends hReady => exact .inr (.inl ⟨hReady, rfl, rfl⟩)
  case acks hWait => exact .inr (.inr (.inl ⟨hWait, rfl, rfl⟩))
  case nacks hWait => exact .inr (.inr (.inr (.inl ⟨hWait, txFail_state _, .inl rfl⟩)))
  case expires hWait hDeadline => exact .inr (.inr (.inr (.inl ⟨hWait, txFail_state _, .inr ⟨rfl, hDeadline⟩⟩)))
  case advances hReady => exact .inr (.inr (.inr (.inr (.inl ⟨hReady, rfl, rfl⟩))))
  case resets aux p => exact .inr (.inr (.inr (.inr (.inr ⟨rfl, .inr ⟨aux, p, rfl⟩⟩))))
  case resetsHard => exact .inr (.inr (.inr (.inr (.inr ⟨rfl, .inl rfl⟩))))
  all_goals exact absurd rfl hChange

/-- Settles O44, transition by transition. -/
theorem receiverTakesOnlyItsTransitions : Obligations.ReceiverTakesOnlyItsTransitions := by
  refine ⟨⟨rfl, rfl, rfl, rfl, rfl⟩, fun i s t h hChange => ?_⟩
  cases exec_effect h
  case accepts seq flen bits cb _ hWait _ => exact .inl ⟨hWait, rfl, seq, flen, bits, rfl⟩
  case validates hDec => exact .inr (.inl ⟨hDec, .inl rfl, rfl⟩)
  case findsMalformed hDec | findsSyndrome hDec | findsMismatch hDec => exact .inr (.inl ⟨hDec, .inr rfl, rfl⟩)
  case responds hReady => exact .inr (.inr (.inl ⟨hReady, rfl, rfl⟩))
  case resets aux p => exact .inr (.inr (.inr ⟨rfl, .inr ⟨aux, p, rfl⟩⟩))
  case resetsHard => exact .inr (.inr (.inr ⟨rfl, .inl rfl⟩))
  case nacks | expires => exact absurd (congrArg Rx.state (txFail_rx _)) hChange
  all_goals exact absurd rfl hChange

/-! ## The counters (R38) -/

/-- A counter one more when `c` holds, and else as before. -/
def Rises (c : Prop) (before now : Count) : Prop := (c → now = before + 1) ∧ (¬ c → now = before)

theorem rises_of_not {c : Prop} {before now : Count} (h : ¬ c) (hNow : now = before) : Rises c before now :=
  ⟨fun hc => absurd hc h, fun _ => hNow⟩

/-- The sender's six counters rise exactly at their events. -/
def TxRises (i : Instr) (s t : State) : Prop :=
  Rises (i = .txSend ∧ (s.tx.state = .encoding ∨ s.tx.state = .retrying)) s.txCnt.frames t.txCnt.frames ∧
  Rises (i = .txSend ∧ s.tx.state = .retrying) s.txCnt.retx t.txCnt.retx ∧
  Rises (i = .ctlAck s.tx.seq ∧ s.tx.state = .awaitingAck) s.txCnt.acked t.txCnt.acked ∧
  Rises (s.tx.state ≠ .exhausted ∧ t.tx.state = .exhausted) s.txCnt.exhausted t.txCnt.exhausted ∧
  Rises (∃ seq, (i = .ctlAck seq ∨ i = .ctlNack seq) ∧ s.tx.state = .awaitingAck ∧ seq ≠ s.tx.seq)
    s.txCnt.stale t.txCnt.stale ∧
  Rises (i = .tick ∧ s.tx.state = .awaitingAck ∧ s.tx.time + 1 = s.tx.deadline) s.txCnt.timeout t.txCnt.timeout

/-- The receiver's seven counters rise exactly at their events. -/
def RxRises (i : Instr) (s t : State) : Prop :=
  Rises (i = .frmLost ∧ s.run = true ∧ s.rx.state = .waitingFrame) s.rxCnt.lost t.rxCnt.lost ∧
  Rises ((∃ seq flen bits, i = .frmIn seq flen bits) ∧ s.run = true ∧ s.rx.state = .waitingFrame)
    s.rxCnt.rxframes t.rxCnt.rxframes ∧
  Rises (i = .rxDecode ∧ s.rx.state = .decoding ∧ t.rx.res = .ok) s.rxCnt.valid t.rxCnt.valid ∧
  Rises (i = .rxDecode ∧ s.rx.state = .decoding ∧ t.rx.res = .crcMismatch) s.rxCnt.crcfail t.rxCnt.crcfail ∧
  Rises (i = .rxDecode ∧ s.rx.state = .decoding ∧ t.rx.res = .invalidSyndrome) s.rxCnt.synfail t.rxCnt.synfail ∧
  Rises (i = .rxDecode ∧ s.rx.state = .decoding ∧ t.rx.res = .malformedFrame) s.rxCnt.malformed t.rxCnt.malformed ∧
  Rises (i = .rxDecode ∧ s.rx.state = .decoding ∧ t.rx.cor = true) s.rxCnt.corrected t.rxCnt.corrected

/-- A host command, an operation of the other side, or one without its guard: it is no operation of this side. -/
theorem not_taken {op : Instr → Bool} {i : Instr} {s : State}
    (h : portOf i = some .cmd ∨ op i = false ∨ ready i s = false) :
    ¬ (portOf i ≠ some .cmd ∧ op i = true ∧ ready i s = true) := by
  rintro ⟨hPort, hOp, hReady⟩
  simp [hPort, hOp, hReady] at h

/-- An operation that leaves the sender's counters, and does not reach `Exhausted`, is none of their events. -/
theorem txRises_of_kept {i : Instr} {s t : State} (hCnt : t.txCnt = s.txCnt)
    (hState : t.tx.state = s.tx.state ∨ t.tx.state ≠ .exhausted)
    (hi : portOf i = some .cmd ∨ senderOp i = false ∨ ready i s = false) : TxRises i s t := by
  have hNot := not_taken hi
  unfold TxRises
  rw [hCnt]
  refine ⟨rises_of_not ?frames rfl, rises_of_not ?retx rfl, rises_of_not ?acked rfl, rises_of_not ?exhausted rfl,
    rises_of_not ?stale rfl, rises_of_not ?timeout rfl⟩
  case frames =>
    rintro ⟨rfl, hReady⟩
    exact hNot ⟨nofun, rfl, (txSendReady_iff s).2 hReady⟩
  case retx =>
    rintro ⟨rfl, hRetry⟩
    exact hNot ⟨nofun, rfl, (txSendReady_iff s).2 (.inr hRetry)⟩
  case acked =>
    rintro ⟨rfl, hWait⟩
    exact hNot ⟨nofun, rfl, (ctlReadyToTake_iff s).2 hWait⟩
  case exhausted =>
    rintro ⟨hBefore, hAfter⟩
    exact hState.elim (fun h => hBefore (h ▸ hAfter)) fun h => h hAfter
  case stale =>
    rintro ⟨seq, rfl | rfl, hWait, _⟩
    · exact hNot ⟨nofun, rfl, (ctlReadyToTake_iff s).2 hWait⟩
    · exact hNot ⟨nofun, rfl, (ctlReadyToTake_iff s).2 hWait⟩
  case timeout =>
    rintro ⟨rfl, _⟩
    exact hNot ⟨nofun, rfl, rfl⟩

/-- An operation that leaves the receiver's counters is none of their events. -/
theorem rxRises_of_kept {i : Instr} {s t : State} (hCnt : t.rxCnt = s.rxCnt)
    (hi : portOf i = some .cmd ∨ receiverOp i = false ∨ ready i s = false) : RxRises i s t := by
  have hNot := not_taken hi
  have hDecode : ∀ c : Prop, ¬ (i = .rxDecode ∧ s.rx.state = .decoding ∧ c) := by
    rintro c ⟨rfl, hDec, _⟩
    exact hNot ⟨nofun, rfl, (rxDecodeReady_iff s).2 hDec⟩
  unfold RxRises
  rw [hCnt]
  refine ⟨rises_of_not ?lost rfl, rises_of_not ?rxframes rfl, rises_of_not (hDecode _) rfl,
    rises_of_not (hDecode _) rfl, rises_of_not (hDecode _) rfl, rises_of_not (hDecode _) rfl,
    rises_of_not (hDecode _) rfl⟩
  case lost =>
    rintro ⟨rfl, hReady⟩
    exact hNot ⟨nofun, rfl, (frmReady_iff s).2 hReady⟩
  case rxframes =>
    rintro ⟨⟨seq, flen, bits, rfl⟩, hReady⟩
    exact hNot ⟨nofun, rfl, (frmReady_iff s).2 hReady⟩

/-- A failed transmission counts `Exhausted` and nothing else (R227). -/
theorem txFail_txCnt {s : State} (hWait : s.tx.state = .awaitingAck) :
    ∃ n, (txFail s).txCnt = { s.txCnt with exhausted := n } ∧
      Rises (s.tx.state ≠ .exhausted ∧ (txFail s).tx.state = .exhausted) s.txCnt.exhausted n := by
  rcases txFail_cases s with ⟨_, hFail⟩ | ⟨_, hFail⟩
  · exact ⟨s.txCnt.exhausted, by rw [hFail], by simp [Rises, hFail]⟩
  · exact ⟨s.txCnt.exhausted + 1, by rw [hFail], by simp [Rises, hFail, hWait]⟩

/-- The sender's counters, effect by effect; where none rises `txRises_of_kept` says why. -/
theorem txRises_of_effect {i : Instr} {s t : State} (hEffect : Effect i s t) (hReset : ∀ aux p, i ≠ .reset aux p)
    (hRst : i ≠ .rst) (hStart : ∀ aux p, i ≠ .sessionStart aux p) : TxRises i s t := by
  cases hEffect
  case resets aux p => exact absurd rfl (hReset aux p)
  case resetsHard => exact absurd rfl hRst
  case starts aux p _ _ => exact absurd rfl (hStart aux p)
  case failsToStart aux p => exact absurd rfl (hStart aux p)
  case answers hPort => exact txRises_of_kept rfl (.inl rfl) (.inl hPort)
  case waits hReady => exact txRises_of_kept rfl (.inl rfl) (.inr (.inr hReady))
  case pushes => exact txRises_of_kept rfl (.inr nofun) (.inl rfl)
  case sends hReady => simp [TxRises, Rises, hReady]
  case acks hWait => simp [TxRises, Rises, hWait]
  case nacks hWait =>
    obtain ⟨n, hCnt, hExhausted⟩ := txFail_txCnt hWait
    rw [TxRises, hCnt]
    simpa [Rises, hWait] using hExhausted
  case ignores seq hi hWait hSeq =>
    rcases hi with rfl | rfl
    · simp [TxRises, Rises, hWait, hSeq]
    · simp [TxRises, Rises, hWait, hSeq]
  case ticks hNot => simpa [TxRises, Rises] using hNot
  case expires hWait hDeadline =>
    obtain ⟨n, hCnt, hExhausted⟩ := txFail_txCnt
      (s := { s with
        tx := { s.tx with time := s.tx.time + 1 }
        txCnt := { s.txCnt with timeout := s.txCnt.timeout + 1 } }) hWait
    rw [TxRises, hCnt]
    simpa [Rises, hWait, ← hDeadline] using hExhausted
  case advances => simp [TxRises, Rises]
  case accepts | loses | validates | findsMalformed | findsSyndrome | findsMismatch | responds =>
    exact txRises_of_kept rfl (.inl rfl) (.inr (.inl rfl))
  all_goals exact txRises_of_kept rfl (.inl rfl) (.inl rfl)

/-- The receiver's counters, effect by effect. -/
theorem rxRises_of_effect {i : Instr} {s t : State} (hEffect : Effect i s t) (hReset : ∀ aux p, i ≠ .reset aux p)
    (hRst : i ≠ .rst) (hStart : ∀ aux p, i ≠ .sessionStart aux p) : RxRises i s t := by
  cases hEffect
  case resets aux p => exact absurd rfl (hReset aux p)
  case resetsHard => exact absurd rfl hRst
  case starts aux p _ _ => exact absurd rfl (hStart aux p)
  case failsToStart aux p => exact absurd rfl (hStart aux p)
  case answers hPort => exact rxRises_of_kept rfl (.inl hPort)
  case waits hReady => exact rxRises_of_kept rfl (.inr (.inr hReady))
  case accepts hRun hWait _ => simp [RxRises, Rises, hRun, hWait]
  case loses hRun hWait => simp [RxRises, Rises, hRun, hWait]
  case validates cor _ hDec => cases cor <;> simp [RxRises, Rises, hDec]
  case findsMalformed cor hDec | findsSyndrome cor hDec => cases cor <;> simp [RxRises, Rises, hDec]
  case findsMismatch cor _ hDec => cases cor <;> simp [RxRises, Rises, hDec]
  case responds => simp [RxRises, Rises]
  case nacks | expires => exact rxRises_of_kept (txFail_rxCnt _) (.inr (.inl rfl))
  case ignores hi _ _ => exact rxRises_of_kept rfl (.inr (.inl (by rcases hi with rfl | rfl <;> rfl)))
  case sends | acks | ticks | advances => exact rxRises_of_kept rfl (.inr (.inl rfl))
  all_goals exact rxRises_of_kept rfl (.inl rfl)

/-- Settles O45: the thirteen are the sender's six and the receiver's seven. -/
theorem countersRiseOnlyAsListed : Obligations.CountersRiseOnlyAsListed := by
  intro i s t h hReset hRst hStart
  have hEffect := exec_effect h
  obtain ⟨hFrames, hRetx, hAcked, hExhausted, hStale, hTimeout⟩ := txRises_of_effect hEffect hReset hRst hStart
  exact ⟨hFrames, hRetx, hAcked, hExhausted, hStale, hTimeout, rxRises_of_effect hEffect hReset hRst hStart⟩

/-! ## Counters never influence behaviour (R38) -/

/-- The state with other counters. -/
def withCounters (a : TxCounters) (b : RxCounters) (s : State) : State := { s with txCnt := a, rxCnt := b }

/-- `t` is `s` but for the counters. -/
def EqButCounters (s t : State) : Prop := ∃ a b, t = withCounters a b s

/-- Two outcomes that go on to states equal but for the counters. -/
def SameButCounters (r r' : Result) : Prop := ∃ t t', r = .next t ∧ r' = .next t' ∧ EqButCounters t t'

/-- A branch on anything but the counters. -/
theorem eqButCounters_ite {c : Prop} [Decidable c] {u v u' v' : State} (hThen : EqButCounters u u')
    (hElse : EqButCounters v v') : EqButCounters (if c then u else v) (if c then u' else v') := by
  split
  · exact hThen
  · exact hElse

/-- A command whose checks do not depend on the counters and whose effect does so only in the counters. -/
theorem sameButCounters_runCommand (cs : List (Bool × Cond)) {d d' s s' : State} (hDone : EqButCounters d d')
    (hState : EqButCounters s s') : SameButCounters (runCommand cs d s) (runCommand cs d' s') := by
  unfold runCommand
  split
  · obtain ⟨a, b, rfl⟩ := hState
    exact ⟨_, _, rfl, rfl, a, b, rfl⟩
  · exact ⟨_, _, rfl, rfl, hDone⟩

section

variable (a : TxCounters) (b : RxCounters) (s : State)

theorem eqButCounters_withCounters : EqButCounters s (withCounters a b s) := ⟨a, b, rfl⟩

theorem eqButCounters_txFail : EqButCounters (txFail s) (txFail (withCounters a b s)) := by
  rw [txFail_eq, txFail_eq]
  exact eqButCounters_ite ⟨_, _, rfl⟩ ⟨_, _, rfl⟩

theorem eqButCounters_cbRetag (seq : SeqNum) : EqButCounters (cbRetag seq s) (cbRetag seq (withCounters a b s)) :=
  eqButCounters_ite ⟨_, _, rfl⟩ ⟨_, _, rfl⟩

theorem eqButCounters_acceptFrame (seq : SeqNum) (flen : BitVec 8) (bits : Bits) :
    EqButCounters (acceptFrame seq flen bits s) (acceptFrame seq flen bits (withCounters a b s)) := by
  obtain ⟨a', b', hRetag⟩ := eqButCounters_cbRetag a b s seq
  unfold acceptFrame
  rw [hRetag]
  exact ⟨_, _, rfl⟩

theorem eqButCounters_applyResult (r : RxResult) :
    EqButCounters (applyResult r s) (applyResult r (withCounters a b s)) := by
  unfold applyResult
  split
  all_goals exact ⟨_, _, rfl⟩

theorem eqButCounters_respondHamDec (v : BitVec 1) (p : Bits) :
    EqButCounters (respondHamDec v p s) (respondHamDec v p (withCounters a b s)) := by
  unfold respondHamDec
  split
  all_goals exact ⟨_, _, rfl⟩

theorem sameButCounters_execCfgWr (aux : BitVec 8) (p : Bits) :
    SameButCounters (execCfgWr aux p s) (execCfgWr aux p (withCounters a b s)) := by
  have hState := eqButCounters_withCounters a b s
  unfold execCfgWr
  cases regOf aux with
  | none => exact sameButCounters_runCommand _ hState hState
  | some r => exact sameButCounters_runCommand _ ⟨_, _, rfl⟩ hState

/-- A guarded operation whose guard does not depend on the counters and whose effect does so only in the counters. -/
theorem sameButCounters_guarded (guard : Bool) {e e' : State} (h : EqButCounters e e') :
    SameButCounters (.next (if guard then e else s)) (.next (if guard then e' else withCounters a b s)) :=
  ⟨_, _, rfl, rfl, eqButCounters_ite h (eqButCounters_withCounters a b s)⟩

/-- Every operation but a read does the same with other counters, but for the counters. -/
theorem exec_withCounters {i : Instr} (hRead : ∀ aux p, i ≠ .cfgRd aux p) :
    SameButCounters (exec i s) (exec i (withCounters a b s)) := by
  have hState := eqButCounters_withCounters a b s
  cases i
  case cfgRd aux p => exact absurd rfl (hRead aux p)
  case cfgWr aux p => exact sameButCounters_execCfgWr a b s aux p
  case sessionStart aux p =>
    exact sameButCounters_runCommand _ (eqButCounters_ite ⟨_, _, rfl⟩ ⟨_, _, rfl⟩) hState
  case hamDec aux p => exact sameButCounters_runCommand _ (eqButCounters_respondHamDec a b s _ p) hState
  case frmIn seq flen bits => exact sameButCounters_guarded a b s _ (eqButCounters_acceptFrame a b s seq flen bits)
  case frmLost => exact sameButCounters_guarded a b s _ ⟨_, _, rfl⟩
  case ctlAck seq => exact sameButCounters_guarded a b s _ (eqButCounters_ite ⟨_, _, rfl⟩ ⟨_, _, rfl⟩)
  case ctlNack seq =>
    exact sameButCounters_guarded a b s _ (eqButCounters_ite (eqButCounters_txFail a b s) ⟨_, _, rfl⟩)
  case tick => exact ⟨_, _, rfl, rfl, eqButCounters_ite (eqButCounters_txFail _ _ _) ⟨_, _, rfl⟩⟩
  case rst => exact ⟨_, _, rfl, rfl, _, _, rfl⟩
  case txSend => exact sameButCounters_guarded a b s _ ⟨_, _, rfl⟩
  case txAdvance => exact sameButCounters_guarded a b s _ ⟨_, _, rfl⟩
  case rxDecode => exact sameButCounters_guarded a b s _ (eqButCounters_applyResult a b s _)
  case rxRespond => exact sameButCounters_guarded a b s _ ⟨_, _, rfl⟩
  all_goals exact sameButCounters_runCommand _ ⟨_, _, rfl⟩ hState

end

/-- Settles O46. -/
theorem countersNeverInfluenceBehaviour : Obligations.CountersNeverInfluenceBehaviour := by
  intro i s a b hRead
  obtain ⟨t, _, hExec, hExec', a', b', rfl⟩ := exec_withCounters a b s hRead
  exact ⟨t, a', b', hExec, hExec'⟩

end Sys2Proof.Machine
end

section
/-! The ordering model (20_memory.md, R68 (d)): the sender and the receiver share no data state (O47). -/

namespace Sys2Proof.Machine

/-! ## The state with the other side replaced -/

/-- The state with another receiver, combining buffer and receiver's counters (R32, R35, R36, R38). -/
def withReceiver (rx : Rx) (cb : Cb) (c : RxCounters) (s : State) : State := { s with rx := rx, cb := cb, rxCnt := c }

/-- The state with another sender and sender's counters (R31, R33, R34, R38). -/
def withSender (tx : Tx) (c : TxCounters) (s : State) : State := { s with tx := tx, txCnt := c }

/-! ## A change of the state carried through an operation

`w` replaces elements of the state. An operation that neither reads nor writes them does the same before `w` and
after. -/

/-- A branch on what `w` leaves, between outcomes that `w` is carried through. -/
theorem ite_eq_apply_ite {g : Prop} [Decidable g] {w : State → State} {u v u' v' : State} (hThen : u' = w u)
    (hElse : v' = w v) : (if g then u' else v') = w (if g then u else v) := by
  rw [hThen, hElse, apply_ite w]

/-- A guarded operation whose guard reads nothing that `w` replaces. -/
theorem next_guarded_apply {guard : Bool} (w : State → State) {effect effect' : State} (s : State)
    (h : effect' = w effect) :
    (.next (if guard then effect' else w s) : Result) = .next (w (if guard then effect else s)) :=
  congrArg _ (ite_eq_apply_ite h rfl)

/-- A command whose checks read nothing that `w` replaces; nor does a refusal write any of it (R287). -/
theorem runCommand_apply {cs : List (Bool × Cond)} {w : State → State} {d s t : State}
    (hRefuse : ∀ st, refuse st (w s) = w (refuse st s)) (h : runCommand cs d s = .next t) :
    runCommand cs (w d) (w s) = .next (w t) := by
  unfold runCommand at h ⊢
  split at h
  · cases h
    rw [hRefuse]
  · cases h
    rfl

/-! ## The sender's operations and the receiver's state -/

/-- The state in which a `TICK` at the deadline makes the transmission fail (R226). -/
def withDeadlineExpired (s : State) : State :=
  { s with
    tx := { s.tx with time := s.tx.time + 1 }
    txCnt := { s.txCnt with timeout := s.txCnt.timeout + 1 } }

theorem execTick_eq (s : State) :
    execTick s = .next
      (if tickExpires s then txFail (withDeadlineExpired s)
        else { s with tx := { s.tx with time := s.tx.time + 1 } }) := rfl

theorem txFail_withReceiver (rx : Rx) (cb : Cb) (c : RxCounters) (s : State) :
    txFail (withReceiver rx cb c s) = withReceiver rx cb c (txFail s) := by
  rw [txFail_eq, txFail_eq]
  exact ite_eq_apply_ite rfl rfl

/-- An operation of the sender goes on, and does the same whatever the receiver, the buffer and its counters hold. -/
theorem exec_withReceiver {i : Instr} (hOp : senderOp i = true) (s : State) :
    ∃ t, exec i s = .next t ∧
      ∀ rx cb c, exec i (withReceiver rx cb c s) = .next (withReceiver rx cb c t) := by
  cases i
  case pktPush aux p =>
    obtain ⟨t, hNext⟩ : ∃ t, execPktPush aux p s = .next t := runCommand_next _ _ _
    exact ⟨t, hNext, fun rx cb c => runCommand_apply (w := withReceiver rx cb c) (fun _ => rfl) hNext⟩
  case ctlAck seq => exact ⟨_, rfl, fun _ _ _ => next_guarded_apply _ s (ite_eq_apply_ite rfl rfl)⟩
  case ctlNack seq =>
    exact ⟨_, rfl, fun rx cb c => next_guarded_apply _ s (ite_eq_apply_ite (txFail_withReceiver rx cb c s) rfl)⟩
  case tick =>
    exact ⟨_, execTick_eq s, fun rx cb c =>
      congrArg Host.Outcome.next (ite_eq_apply_ite (txFail_withReceiver rx cb c (withDeadlineExpired s)) rfl)⟩
  case txSend => exact ⟨_, rfl, fun rx cb c => next_guarded_apply (withReceiver rx cb c) s rfl⟩
  case txAdvance => exact ⟨_, rfl, fun rx cb c => next_guarded_apply (withReceiver rx cb c) s rfl⟩
  all_goals exact absurd hOp Bool.false_ne_true

/-! ## The receiver's operations and the sender's state -/

section

variable (tx : Tx) (c : TxCounters) (s : State)

theorem cbRetag_withSender (seq : SeqNum) : cbRetag seq (withSender tx c s) = withSender tx c (cbRetag seq s) :=
  ite_eq_apply_ite rfl rfl

theorem acceptFrame_withSender (seq : SeqNum) (flen : BitVec 8) (bits : Bits) :
    acceptFrame seq flen bits (withSender tx c s) = withSender tx c (acceptFrame seq flen bits s) := by
  unfold acceptFrame
  rw [cbRetag_withSender]
  rfl

theorem applyResult_withSender (r : RxResult) :
    applyResult r (withSender tx c s) = withSender tx c (applyResult r s) := by
  unfold applyResult
  split
  all_goals rfl

theorem decodeFrame_withSender : decodeFrame (withSender tx c s) = withSender tx c (decodeFrame s) :=
  applyResult_withSender tx c s (rxProcess s.cfg (s.rx.frm.take s.rx.len.toNat) s.cb.acc)

end

/-- An operation of the receiver goes on, and does the same whatever the sender and its counters hold. -/
theorem exec_withSender {i : Instr} (hOp : receiverOp i = true) (s : State) :
    ∃ t, exec i s = .next t ∧ ∀ tx c, exec i (withSender tx c s) = .next (withSender tx c t) := by
  cases i
  case frmIn seq flen bits =>
    exact ⟨_, rfl, fun tx c => next_guarded_apply _ s (acceptFrame_withSender tx c s seq flen bits)⟩
  case frmLost => exact ⟨_, rfl, fun tx c => next_guarded_apply (withSender tx c) s rfl⟩
  case rxDecode => exact ⟨_, rfl, fun tx c => next_guarded_apply _ s (decodeFrame_withSender tx c s)⟩
  case rxRespond => exact ⟨_, rfl, fun tx c => next_guarded_apply (withSender tx c) s rfl⟩
  all_goals exact absurd hOp Bool.false_ne_true

/-! ## The configuration and `RUN` -/

theorem txFail_run (s : State) : (txFail s).run = s.run := by
  obtain ⟨_, hRun, _⟩ := txFail_frame s
  exact hRun

/-- Only a host command other than `PKT_PUSH`, or `RST`, writes the configuration or `RUN`: no operation of either
controller does. -/
theorem cfg_run_of_effect {i : Instr} {s t : State} (hEffect : Effect i s t)
    (hOp : senderOp i = true ∨ receiverOp i = true) : t.cfg = s.cfg ∧ t.run = s.run := by
  cases hEffect
  case resets | resetsHard | configures | starts | ends => exact hOp.elim nofun nofun
  case nacks | expires => exact ⟨txFail_cfg _, txFail_run _⟩
  all_goals exact ⟨rfl, rfl⟩

/-- Settles O47, side by side. -/
theorem senderAndReceiverShareNoState : Obligations.SenderAndReceiverShareNoState := by
  refine ⟨fun i s hOp => ?sender, fun i s hOp => ?receiver⟩
  case sender =>
    obtain ⟨t, hNext, hSame⟩ := exec_withReceiver hOp s
    obtain ⟨hCfg, hRun⟩ := cfg_run_of_effect (exec_effect hNext) (.inl hOp)
    exact ⟨t, hNext, hCfg, hRun, hSame⟩
  case receiver =>
    obtain ⟨t, hNext, hSame⟩ := exec_withSender hOp s
    obtain ⟨hCfg, hRun⟩ := cfg_run_of_effect (exec_effect hNext) (.inr hOp)
    exact ⟨t, hNext, hCfg, hRun, hSame⟩

end Sys2Proof.Machine
end

section
/-! The formats of the input ports (30_encoding.md): decoding reads back every encoding (O58), the sample words (O60), the
illegal opcodes (O59), and the order of two internal steps (O48). -/

namespace Sys2Proof.Machine

/-! ## Decoding after encoding, format by format -/

/-- Format `CMD` (R91, R92): a command is read back from its opcode, `aux` and payload. -/
theorem decode_encodeCmd {op aux : BitVec 8} {p : Bits} {i : Instr} (hFits : payloadFits p = true)
    (hOp : commandOf op aux p = some i) (rest : Bits) : decode .cmd (encodeCmd op aux p ++ rest) = .ok (i, rest) := by
  have hWire := decodeCmd_header op.toNat aux p rest op.isLt (of_decide_eq_true hFits)
  rw [BitVec.ofNat_toNat, BitVec.setWidth_eq, hOp] at hWire
  exact hWire

/-- Format `FRM` (R96). -/
theorem decode_encode_frmIn {seq : SeqNum} {flen : BitVec 8} {bits : Bits} (hFits : frameFits flen bits = true)
    (rest : Bits) : decode .frmIn (encode (.frmIn seq flen bits) ++ rest) = .ok (.frmIn seq flen bits, rest) := by
  rw [encode, frmHead_toNat]
  exact decodeFrm_head seq flen bits rest (of_decide_eq_true hFits)

/-- R95: bit 16 of a control word is its kind. -/
theorem ctlWord_testBit (kind : Bool) (seq : SeqNum) : (ctlWord kind seq).toNat.testBit 16 = kind := by
  have hSeq := seq.isLt
  have hDiv : (kind.toNat * 0x10000 + seq.toNat) / 2 ^ 16 = kind.toNat := by omega
  rw [ctlWord_toNat, Nat.testBit_eq_decide_div_mod_eq, hDiv]
  cases kind
  · rfl
  · rfl

/-- R95: the other 16 bits of a control word are its sequence number. -/
theorem ofNat_ctlWord (kind : Bool) (seq : SeqNum) : BitVec.ofNat 16 (ctlWord kind seq).toNat = seq := by
  apply BitVec.eq_of_toNat_eq
  have hSeq := seq.isLt
  rw [BitVec.toNat_ofNat, ctlWord_toNat]
  omega

/-- Format `CTL` (R95). -/
theorem decode_ctlWord (kind : Bool) (seq : SeqNum) (rest : Bits) :
    decode .ctlIn (wordBits 17 (ctlWord kind seq).toNat ++ rest) =
      .ok (if kind then .ctlAck seq else .ctlNack seq, rest) := by
  rw [decode, decodeCtl_word, ctlWord_testBit, ofNat_ctlWord]

/-- Settles O58, format by format (R90). An internal step has no port (`cases hPort` closes it); what is left after the
events and the strobes are the host commands, each read back by its row of R100. -/
theorem decodeReadsBackEveryEncoding : Obligations.DecodeReadsBackEveryEncoding := by
  intro i p rest hWell hPort
  cases i
  all_goals cases hPort
  case frmIn seq flen bits => exact decode_encode_frmIn hWell rest
  case ctlAck seq => exact decode_ctlWord true seq rest
  case ctlNack seq => exact decode_ctlWord false seq rest
  case frmLost | tick | rst => rfl
  all_goals exact decode_encodeCmd hWell rfl rest

/-- An encoding with nothing behind it. -/
theorem decode_encode {i : Instr} {p : Port} (hWell : wellFormed i = true) (hPort : portOf i = some p) :
    decode p (encode i) = .ok (i, []) := by
  rw [← List.append_nil (encode i)]
  exact decodeReadsBackEveryEncoding i p [] hWell hPort

/-- Settles O60: each word is the encoding of its operation, but for the header that lacks its payload. -/
theorem sampleWordsDecode : Obligations.SampleWordsDecode :=
  ⟨decode_encode (i := .pktPush 0 [true, true, false, false]) rfl rfl, by decide,
    decode_encode (i := .cfgRd 0x10 []) rfl rfl, decode_encode (i := .ctlAck 5) rfl rfl,
    decode_encode (i := .ctlNack 0) rfl rfl, decode_encode (i := .frmIn 7 2 [true, false]) rfl rfl⟩

/-! ## Illegal opcodes -/

theorem lt_of_illegalOpcode {op : Nat} (h : illegalOpcode op) : op < 256 := by
  unfold illegalOpcode at h
  omega

/-- R101: the table of commands has no row at an illegal opcode. -/
theorem commandOf_of_illegalOpcode {op : Nat} (h : illegalOpcode op) (aux : BitVec 8) (p : Bits) :
    commandOf (BitVec.ofNat 8 op) aux p = none := by
  have hOp : (BitVec.ofNat 8 op).toNat = op := Nat.mod_eq_of_lt (lt_of_illegalOpcode h)
  unfold illegalOpcode at h
  unfold commandOf
  split
  case h_18 => rfl
  all_goals omega

/-- R101: the host's turn consumes the header and payload of a command with an illegal opcode. -/
theorem fetchTurn_host_of_badOp {s : State} {op : BitVec 8} {rest : Bits}
    (h : decode .cmd s.env.cmdIn = .error (.badOp op rest)) : fetchTurn .host s = .illegal (withCmdIn rest s) := by
  simp only [fetchTurn, fetchCmd, h]

/-- Settles O59: the decoder refuses the opcode, the host's turn consumes the command, and the step answers. -/
theorem illegalOpcodesAnswerBadOp : Obligations.IllegalOpcodesAnswerBadOp := by
  intro op aux p rest s ts hOp hFits hTurn hIn
  have hDec : decode .cmd s.env.cmdIn = .error (.badOp (BitVec.ofNat 8 op) rest) := by
    rw [hIn, decode_cmdWire op aux p rest (lt_of_illegalOpcode hOp) hFits, commandOf_of_illegalOpcode hOp]
  rw [step_of_turn hTurn (by simp), fetchTurn_host_of_badOp (s := withTurns ts s) hDec, runFetched, answerBadOp,
    refuse_eq_answered]
  rfl

/-! ## The order of two internal steps -/

/-- An effect under its guard (R100, U13). -/
def guarded (guard : State → Bool) (effect : State → State) (s : State) : State := if guard s then effect s else s

/-- Two guarded effects commute when the effects do and neither writes what the other's guard reads. -/
theorem commute_guarded {g h : State → Bool} {e f : State → State} (hEffects : Function.Commute e f)
    (hLeft : ∀ s, g (f s) = g s) (hRight : ∀ s, h (e s) = h s) :
    Function.Commute (guarded g e) (guarded h f) := by
  intro s
  simp only [guarded, apply_ite g, apply_ite h, hLeft, hRight, ite_self]
  split_ifs
  · exact hEffects s
  all_goals rfl

/-- R254: the effect of `RX_RESPOND`. -/
def answerFrame (s : State) : State := rxEmitControl (decide (s.rx.state = .validatedAck)) s

theorem decodeFrame_tx (s : State) : (decodeFrame s).tx = s.tx := by
  unfold decodeFrame applyResult
  split
  all_goals rfl

/-- R253: a result of `RX_DECODE` is applied to elements that no internal step of the sender reads or writes. -/
theorem applyResult_sender_effects (r : RxResult) (s : State) :
    sendFrame (applyResult r s) = applyResult r (sendFrame s) ∧
      advance (applyResult r s) = applyResult r (advance s) := by
  unfold applyResult
  split
  all_goals exact ⟨rfl, rfl⟩

theorem sendFrame_commute_decodeFrame : Function.Commute sendFrame decodeFrame := fun s =>
  (applyResult_sender_effects (rxProcess s.cfg (s.rx.frm.take s.rx.len.toNat) s.cb.acc) s).left

theorem advance_commute_decodeFrame : Function.Commute advance decodeFrame := fun s =>
  (applyResult_sender_effects (rxProcess s.cfg (s.rx.frm.take s.rx.len.toNat) s.cb.acc) s).right

/-- A frame goes to `FRM_OUT` and its answer to `CTL_OUT`, two queues (R185, R192). -/
theorem sendFrame_commute_answerFrame : Function.Commute sendFrame answerFrame := fun _ => rfl

theorem advance_commute_answerFrame : Function.Commute advance answerFrame := fun _ => rfl

theorem txSendReady_decodeFrame (s : State) : txSendReady (decodeFrame s) = txSendReady s := by
  rw [txSendReady, decodeFrame_tx, txSendReady]

theorem txAdvanceReady_decodeFrame (s : State) : txAdvanceReady (decodeFrame s) = txAdvanceReady s := by
  rw [txAdvanceReady, decodeFrame_tx, txAdvanceReady]

/-! ### The internal steps as guarded effects (R224, R229, R253, R254) -/

theorem exec_txSend (s : State) : exec .txSend s = .next (guarded txSendReady sendFrame s) := rfl

theorem exec_txAdvance (s : State) : exec .txAdvance s = .next (guarded txAdvanceReady advance s) := rfl

theorem exec_rxDecode (s : State) : exec .rxDecode s = .next (guarded rxDecodeReady decodeFrame s) := rfl

theorem exec_rxRespond (s : State) : exec .rxRespond s = .next (guarded rxRespondReady answerFrame s) := rfl

/-- Operations whose effects commute give the same state in either order. -/
theorem exec_commute {i j : Instr} {e f : State → State} (hLeft : ∀ s, exec i s = .next (e s))
    (hRight : ∀ s, exec j s = .next (f s)) (hEffects : Function.Commute e f) (s : State) :
    ∃ t u v, exec i s = .next t ∧ exec j s = .next u ∧ exec j t = .next v ∧ exec i u = .next v :=
  ⟨e s, f s, f (e s), hLeft s, hRight s, hRight (e s), (hLeft (f s)).trans (congrArg _ (hEffects s))⟩

/-- Settles O48, pair by pair. -/
theorem internalStepsCommute : Obligations.InternalStepsCommute := by
  intro i j s hSender hReceiver
  rcases hSender with rfl | rfl
  · rcases hReceiver with rfl | rfl
    · exact exec_commute exec_txSend exec_rxDecode
        (commute_guarded sendFrame_commute_decodeFrame txSendReady_decodeFrame fun _ => rfl) s
    · exact exec_commute exec_txSend exec_rxRespond
        (commute_guarded sendFrame_commute_answerFrame (fun _ => rfl) fun _ => rfl) s
  · rcases hReceiver with rfl | rfl
    · exact exec_commute exec_txAdvance exec_rxDecode
        (commute_guarded advance_commute_decodeFrame txAdvanceReady_decodeFrame fun _ => rfl) s
    · exact exec_commute exec_txAdvance exec_rxRespond
        (commute_guarded advance_commute_answerFrame (fun _ => rfl) fun _ => rfl) s

end Sys2Proof.Machine
end

section
/-! The CRC unit (40_crc.md): the polynomial of a bit sequence (R8), the long division as remainder over GF(2) (O29),
what a CRC detects and misses (O30), and the answers of the three CRC commands (O10). -/

namespace Sys2Proof.Machine

open Polynomial

/-! ## The polynomial of a sequence (R8) -/

/-- R8: what a bit contributes at the power `n`. -/
noncomputable def bitTerm (b : Bool) (n : Nat) : Polynomial (ZMod 2) := if b then X ^ n else 0

@[simp] theorem bitTerm_false (n : Nat) : bitTerm false n = 0 := rfl

@[simp] theorem bitTerm_true (n : Nat) : bitTerm true n = X ^ n := rfl

/-- XOR of bits is addition modulo 2; `1 xor 1` is where the characteristic enters. -/
theorem bitTerm_xor (a b : Bool) (n : Nat) : bitTerm (a ^^ b) n = bitTerm a n + bitTerm b n := by
  cases a
  · simp
  · cases b
    · simp
    · exact (CharTwo.add_self_eq_zero _).symm

theorem bitTerm_mul_pow (b : Bool) (n k : Nat) : bitTerm b n * X ^ k = bitTerm b (n + k) := by
  cases b
  · exact zero_mul _
  · exact (pow_add _ _ _).symm

theorem degree_bitTerm_lt (b : Bool) (n : Nat) : (bitTerm b n).degree < (n + 1 : Nat) := by
  cases b
  · exact bot_lt_iff_ne_bot.mpr (by simp)
  · rw [bitTerm_true, degree_X_pow]; exact_mod_cast n.lt_succ_self

@[simp] theorem bitPoly_nil : bitPoly [] = 0 := rfl

/-- The first bit is the coefficient of the highest power (R8). -/
theorem bitPoly_cons (b : Bool) (s : Bits) : bitPoly (b :: s) = bitTerm b s.length + bitPoly s := by
  rw [bitPoly, List.length_cons, Finset.sum_range_succ', add_comm]
  congr 1
  exact Finset.sum_congr rfl fun i _ => by simp [Nat.sub_sub, Nat.add_comm]

theorem bitPoly_append (s t : Bits) : bitPoly (s ++ t) = bitPoly s * X ^ t.length + bitPoly t := by
  induction s with
  | nil => simp
  | cons b s ih =>
    rw [List.cons_append, bitPoly_cons, ih, bitPoly_cons, add_mul, bitTerm_mul_pow, List.length_append, add_assoc]

@[simp] theorem bitPoly_zeros (n : Nat) : bitPoly (zeros n) = 0 := by
  induction n with
  | zero => rfl
  | succ n ih => rw [zeros, List.replicate_succ, bitPoly_cons, bitTerm_false, zero_add]; exact ih

/-- A sequence of `n` bits has a polynomial of degree below `n`. -/
theorem degree_bitPoly_lt (s : Bits) : (bitPoly s).degree < s.length := by
  induction s with
  | nil => exact bot_lt_iff_ne_bot.mpr (by simp)
  | cons b s ih =>
    have hTail : (bitPoly s).degree < (s.length + 1 : Nat) := ih.trans (by exact_mod_cast s.length.lt_succ_self)
    rw [bitPoly_cons]
    exact (degree_add_le _ _).trans_lt (max_lt (degree_bitTerm_lt b _) hTail)

/-- The leading coefficient tells the first bit. -/
theorem coeff_bitPoly_cons (b : Bool) (s : Bits) : (bitPoly (b :: s)).coeff s.length = if b then 1 else 0 := by
  rw [bitPoly_cons, coeff_add, coeff_eq_zero_of_degree_lt (degree_bitPoly_lt s)]
  cases b
  · simp
  · simp

/-- Among sequences of one length, a polynomial has one sequence. -/
theorem bitPoly_injective {s t : Bits} (hLength : s.length = t.length) (hPoly : bitPoly s = bitPoly t) : s = t := by
  induction s generalizing t with
  | nil => exact (List.length_eq_zero_iff.mp hLength.symm).symm
  | cons a s ih =>
    obtain ⟨b, t, rfl⟩ := List.exists_cons_of_length_eq_add_one hLength.symm
    have hTail : s.length = t.length := Nat.succ_injective hLength
    have hCoeff : (if a then 1 else 0 : ZMod 2) = if b then 1 else 0 := by
      rw [← coeff_bitPoly_cons a s, hPoly, hTail, coeff_bitPoly_cons]
    obtain rfl : a = b := by
      clear hPoly hLength
      revert a b
      decide
    rw [bitPoly_cons, bitPoly_cons, hTail] at hPoly
    rw [ih hTail (add_left_cancel hPoly)]

theorem monic_bitPoly (g : Bits) : (bitPoly (true :: g)).Monic := by
  rw [bitPoly_cons]
  exact monic_X_pow_add (degree_bitPoly_lt g)

theorem degree_bitPoly_true_cons (g : Bits) : (bitPoly (true :: g)).degree = g.length := by
  rw [bitPoly_cons, bitTerm_true, degree_add_eq_left_of_degree_lt, degree_X_pow]
  exact (degree_bitPoly_lt g).trans_eq (degree_X_pow _).symm

/-! ## XOR and flips of sequences -/

theorem length_xorBits {a b : Bits} (h : a.length = b.length) : (xorBits a b).length = a.length := by
  simp [xorBits, h]

theorem bitPoly_xorBits {a b : Bits} (h : a.length = b.length) : bitPoly (xorBits a b) = bitPoly a + bitPoly b := by
  induction a generalizing b with
  | nil => rw [List.length_eq_zero_iff.mp h.symm]; simp [xorBits]
  | cons x a ih =>
    obtain ⟨y, b, rfl⟩ := List.exists_cons_of_length_eq_add_one h.symm
    have hTail : a.length = b.length := Nat.succ_injective h
    have hXor : xorBits (x :: a) (y :: b) = (x ^^ y) :: xorBits a b := rfl
    rw [hXor, bitPoly_cons, ih hTail, length_xorBits hTail, bitTerm_xor, bitPoly_cons, bitPoly_cons, hTail]
    ring

/-- R127: flipping bit `i` of `n` bits adds `x^(n-1-i)`. -/
theorem bitPoly_flipBit {s : Bits} {i : Nat} (h : i < s.length) :
    bitPoly (flipBit s i) = bitPoly s + X ^ (s.length - 1 - i) := by
  induction s generalizing i with
  | nil => exact absurd h (Nat.not_lt_zero i)
  | cons b s ih =>
    cases i with
    | zero =>
      have hFlip : flipBit (b :: s) 0 = (b ^^ true) :: s := by simp [flipBit]
      rw [hFlip, bitPoly_cons, bitTerm_xor, bitPoly_cons]
      simp only [bitTerm_true, List.length_cons, Nat.add_sub_cancel, Nat.sub_zero]
      ring
    | succ i =>
      have hFlip : flipBit (b :: s) (i + 1) = b :: flipBit s i := rfl
      have hExp : (b :: s).length - 1 - (i + 1) = s.length - 1 - i := by rw [List.length_cons]; omega
      have hLength : (flipBit s i).length = s.length := List.length_modify _ _ _
      rw [hFlip, bitPoly_cons, ih (Nat.lt_of_succ_lt_succ h), hLength, hExp, bitPoly_cons, add_assoc]

theorem length_xorFront (w g : Bits) : (xorFront w g).length = w.length := by
  fun_induction xorFront w g with
  | case1 w => rfl
  | case2 => rfl
  | case3 a w b g ih => rw [List.length_cons, ih, List.length_cons]

/-- XORing `g` onto the front of `w` adds `poly(g)`, shifted up to the front. -/
theorem bitPoly_xorFront {w g : Bits} (h : g.length ≤ w.length) :
    bitPoly (xorFront w g) = bitPoly w + bitPoly g * X ^ (w.length - g.length) := by
  fun_induction xorFront w g with
  | case1 w => simp
  | case2 => simp at h
  | case3 a w b g ih =>
    have hTail : g.length ≤ w.length := Nat.le_of_succ_le_succ h
    have hShift : g.length + (w.length - g.length) = w.length := Nat.add_sub_cancel' hTail
    have hExp : (a :: w).length - (b :: g).length = w.length - g.length := by simp
    rw [bitPoly_cons, ih hTail, length_xorFront, bitTerm_xor, hExp, bitPoly_cons, bitPoly_cons, add_mul,
      bitTerm_mul_pow, hShift]
    ring

/-! ## The long division (R121) -/

/-- A round on a leading 0 only drops it. -/
theorem polymodRounds_false (g w : Bits) (n : Nat) :
    polymodRounds (true :: g) (n + 1) (false :: w) = polymodRounds (true :: g) n w := rfl

/-- A round on a leading 1 XORs the rest of the generator onto what follows. -/
theorem polymodRounds_true (g w : Bits) (n : Nat) :
    polymodRounds (true :: g) (n + 1) (true :: w) = polymodRounds (true :: g) n (xorFront w g) := rfl

/-- A round on a leading 1 subtracts a multiple of `poly(g)`. -/
theorem bitPoly_true_cons_eq {g w : Bits} (h : g.length ≤ w.length) :
    bitPoly (true :: w) = bitPoly (xorFront w g) + bitPoly (true :: g) * X ^ (w.length - g.length) := by
  have hShift : g.length + (w.length - g.length) = w.length := Nat.add_sub_cancel' h
  have hCancel := CharTwo.add_self_eq_zero (bitPoly g * X ^ (w.length - g.length))
  rw [bitPoly_xorFront h, bitPoly_cons true g, add_mul, bitTerm_mul_pow, hShift, bitPoly_cons]
  linear_combination -hCancel

/-- The invariant of the loop of R121: the division leaves `r` bits and keeps the remainder. -/
theorem polymodRounds_spec {g w : Bits} {n : Nat} (h : w.length = n + g.length) :
    (polymodRounds (true :: g) n w).length = g.length ∧
      bitPoly (polymodRounds (true :: g) n w) %ₘ bitPoly (true :: g) = bitPoly w %ₘ bitPoly (true :: g) := by
  induction n generalizing w with
  | zero => exact ⟨h.trans (Nat.zero_add _), rfl⟩
  | succ n ih =>
    obtain ⟨b, w, rfl⟩ := List.exists_cons_of_length_eq_add_one (h.trans (Nat.add_right_comm n 1 g.length))
    have hTail : w.length = n + g.length := by rw [List.length_cons] at h; omega
    cases b with
    | false =>
      rw [polymodRounds_false, bitPoly_cons false w, bitTerm_false, zero_add]
      exact ih hTail
    | true =>
      obtain ⟨hLength, hRemainder⟩ := ih ((length_xorFront w g).trans hTail)
      rw [polymodRounds_true, hRemainder]
      refine ⟨hLength, (modByMonic_eq_of_dvd_sub (monic_bitPoly g) ?_).symm⟩
      have hFits : g.length ≤ w.length := by omega
      rw [bitPoly_true_cons_eq hFits, add_sub_cancel_left]
      exact dvd_mul_right _ _

/-- R121: `polymod` has `r` bits and the remainder of `s`, whether `s` is divided or only padded. -/
theorem polymod_spec (s g : Bits) :
    (polymod s (true :: g)).length = g.length ∧
      bitPoly (polymod s (true :: g)) %ₘ bitPoly (true :: g) = bitPoly s %ₘ bitPoly (true :: g) := by
  unfold polymod
  simp only [List.length_cons, Nat.add_sub_cancel]
  split
  · rename_i hDivided
    exact polymodRounds_spec (Nat.sub_add_cancel hDivided).symm
  · rename_i hPadded
    refine ⟨?_, by rw [bitPoly_append, bitPoly_zeros, zero_mul, zero_add]⟩
    rw [List.length_append, length_zeros]
    omega

theorem length_polymod (s g : Bits) : (polymod s (true :: g)).length = g.length := (polymod_spec s g).left

/-- A sequence of `r` bits is its own remainder. -/
theorem bitPoly_modByMonic_self {t g : Bits} (h : t.length = g.length) :
    bitPoly t %ₘ bitPoly (true :: g) = bitPoly t := by
  rw [modByMonic_eq_self_iff (monic_bitPoly g), degree_bitPoly_true_cons, ← h]
  exact degree_bitPoly_lt t

theorem bitPoly_polymod (s g : Bits) : bitPoly (polymod s (true :: g)) = bitPoly s %ₘ bitPoly (true :: g) := by
  rw [← (polymod_spec s g).right, bitPoly_modByMonic_self (length_polymod s g)]

/-- R121: the remainder has one sequence of `r` bits. -/
theorem eq_polymod {s t g : Bits} (hLength : t.length = g.length)
    (hPoly : bitPoly t = bitPoly s %ₘ bitPoly (true :: g)) : t = polymod s (true :: g) :=
  bitPoly_injective (hLength.trans (length_polymod s g).symm) (hPoly.trans (bitPoly_polymod s g).symm)

/-- Settles O29, by the invariant of the division loop; unique because `r` bits are determined by their polynomial. -/
theorem polymodIsThePolynomialRemainder : Obligations.PolymodIsThePolynomialRemainder := fun s g =>
  ⟨length_polymod s g, bitPoly_polymod s g, fun _ hLength hPoly => eq_polymod hLength hPoly⟩

/-! ## The check sequence and its check (R122, R123) -/

theorem length_crcRem (p g : Bits) : (crcRem p (true :: g)).length = g.length := length_polymod _ _

theorem bitPoly_crcRem (p g : Bits) :
    bitPoly (crcRem p (true :: g)) = (bitPoly p * X ^ g.length) %ₘ bitPoly (true :: g) := by
  rw [crcRem, bitPoly_polymod, bitPoly_append, bitPoly_zeros, add_zero, length_zeros]
  rfl

/-- R123: a sequence validates exactly when its polynomial leaves remainder 0. -/
theorem crcCheck_iff (s g : Bits) : crcCheck s (true :: g) = true ↔ bitPoly s %ₘ bitPoly (true :: g) = 0 := by
  rw [← bitPoly_polymod, crcCheck, beq_iff_eq]
  constructor
  · intro h
    rw [h, bitPoly_zeros]
  · intro h
    exact bitPoly_injective ((length_polymod s g).trans (length_zeros _).symm) (h.trans (bitPoly_zeros _).symm)

/-- R127 (a): `poly(p) * x^r` and its remainder add up to a multiple of `poly(g)`, since adding is subtracting. -/
theorem crcCheck_crcAppend (p g : Bits) : crcCheck (crcAppend p (true :: g)) (true :: g) = true := by
  rw [crcCheck_iff, crcAppend, bitPoly_append, length_crcRem, add_modByMonic,
    bitPoly_modByMonic_self (length_crcRem p g), bitPoly_crcRem]
  exact CharTwo.add_self_eq_zero _

/-- R127 (c). -/
theorem crcRem_xorBits {a b : Bits} (h : a.length = b.length) (g : Bits) :
    crcRem (xorBits a b) (true :: g) = xorBits (crcRem a (true :: g)) (crcRem b (true :: g)) := by
  have hRem : (crcRem a (true :: g)).length = (crcRem b (true :: g)).length := by rw [length_crcRem, length_crcRem]
  apply bitPoly_injective
  · rw [length_xorBits hRem, length_crcRem, length_crcRem]
  · rw [bitPoly_xorBits hRem, bitPoly_crcRem, bitPoly_crcRem, bitPoly_crcRem, bitPoly_xorBits h, add_mul,
      add_modByMonic]

/-- A valid sequence with an added error has the remainder of the error. -/
theorem modByMonic_add_of_crcCheck {a g : Bits} (h : crcCheck a (true :: g) = true) (e : Polynomial (ZMod 2)) :
    (bitPoly a + e) %ₘ bitPoly (true :: g) = e %ₘ bitPoly (true :: g) := by
  rw [add_modByMonic, (crcCheck_iff a g).mp h, zero_add]

/-- R127 (d): an error pattern on a valid sequence is missed exactly when it validates itself. -/
theorem crcCheck_xorBits {a e g : Bits} (hLength : a.length = e.length) (h : crcCheck a (true :: g) = true) :
    crcCheck (xorBits a e) (true :: g) = crcCheck e (true :: g) := by
  rw [Bool.eq_iff_iff, crcCheck_iff, crcCheck_iff, bitPoly_xorBits hLength, modByMonic_add_of_crcCheck h]

/-- R127 (b): a generator of degree at least 1 with constant term 1 divides no power of `x`: it is coprime to `x`. -/
theorem not_dvd_X_pow (m : Bits) (k : Nat) : ¬ bitPoly (true :: (m ++ [true])) ∣ X ^ k := by
  intro hDvd
  have hPoly : bitPoly (true :: (m ++ [true])) = bitPoly (true :: m) * X + 1 := by
    rw [← List.cons_append, bitPoly_append]
    simp [bitPoly_cons]
  have hCoprime : IsCoprime (bitPoly (true :: (m ++ [true]))) X := ⟨1, -bitPoly (true :: m), by rw [hPoly]; ring⟩
  have hUnit := (hCoprime.pow_right (n := k)).isUnit_of_dvd' dvd_rfl hDvd
  have hDegree := degree_eq_zero_of_isUnit hUnit
  rw [degree_bitPoly_true_cons, List.length_append, List.length_singleton] at hDegree
  exact absurd hDegree (by exact_mod_cast m.length.succ_ne_zero)

/-- R127 (b): one flipped bit of a valid sequence is seen. -/
theorem crcCheck_flipBit {s m : Bits} {i : Nat} (hIndex : i < s.length)
    (h : crcCheck s (true :: (m ++ [true])) = true) : crcCheck (flipBit s i) (true :: (m ++ [true])) = false := by
  rw [← Bool.not_eq_true, crcCheck_iff, bitPoly_flipBit hIndex, modByMonic_add_of_crcCheck h,
    modByMonic_eq_zero_iff_dvd (monic_bitPoly _)]
  exact not_dvd_X_pow m _

/-! ## The legal generators (R6, R23) -/

/-- Stripping the leading zeros of a sequence that is not all zero leaves a leading 1. -/
theorem stripZeros_eq_true_cons {s : Bits} (h : true ∈ s) : ∃ m, stripZeros s = true :: m := by
  induction s with
  | nil => simp at h
  | cons b s ih =>
    cases b with
    | true => exact ⟨s, rfl⟩
    | false => exact ih (by simpa using h)

/-- A word whose value is not 0 has a 1. -/
theorem true_mem_wordBits {w v : Nat} (hPos : v ≠ 0) (hFits : v < 2 ^ w) : true ∈ wordBits w v := by
  obtain ⟨i, hBit⟩ := Nat.exists_testBit_of_ne_zero hPos
  have hIndex : i < w := (Nat.pow_lt_pow_iff_right one_lt_two).mp ((Nat.ge_two_pow_of_testBit hBit).trans_lt hFits)
  rw [wordBits, List.mem_map]
  exact ⟨w - 1 - i, List.mem_range.mpr (by omega), by rwa [show w - 1 - (w - 1 - i) = i by omega]⟩

/-- R120: a legal `g` has `g[0] = 1`, `g[r] = 1` and `r >= 1`. -/
theorem genSeq_of_genOk {c : Cfg} (h : genOk c = true) : ∃ m, genSeq c = true :: (m ++ [true]) := by
  obtain ⟨hTwo, hOdd⟩ : 2 ≤ c.gen.toNat ∧ c.gen.toNat.testBit 0 = true := by simpa [genOk, BitVec.getLsbD] using h
  have hNonzero : c.gen ≠ 0 := fun hZero => by simp [hZero] at hTwo
  have hLt := c.gen.isLt
  have hBits : wordBits 17 c.gen.toNat = wordBits 16 (c.gen.toNat / 2) ++ [true] := by rw [wordBits_succ, hOdd]
  have hOne : true ∈ wordBits 16 (c.gen.toNat / 2) := true_mem_wordBits (by omega) (by omega)
  obtain ⟨m, hStrip⟩ := stripZeros_eq_true_cons hOne
  refine ⟨m, ?_⟩
  rw [genSeq, if_neg hNonzero, hBits, stripZeros, List.dropWhile_append, ← stripZeros, hStrip]
  rfl

theorem length_genSeq_le {c : Cfg} (h : genOk c = true) : (genSeq c).length ≤ 17 := by
  have hNonzero : c.gen ≠ 0 := fun hZero => by simp [genOk, hZero] at h
  rw [genSeq, if_neg hNonzero]
  exact (List.dropWhile_sublist _).length_le.trans_eq (length_wordBits 17 _)

/-- R6: the check sequence of a legal configuration has `r` bits. -/
theorem length_crcRem_genSeq {c : Cfg} (h : genOk c = true) (p : Bits) : (crcRem p (genSeq c)).length = degR c := by
  obtain ⟨m, hGen⟩ := genSeq_of_genOk h
  rw [degR, hGen, length_crcRem]
  rfl

/-- Settles O30, clause by clause, on the shape of a legal generator. -/
theorem crcDetectsEverySingleError : Obligations.CrcDetectsEverySingleError := by
  intro c hGen
  have hRem := length_crcRem_genSeq hGen
  obtain ⟨m, hSeq⟩ := genSeq_of_genOk hGen
  rw [hSeq] at hRem ⊢
  refine ⟨fun p => crcCheck_crcAppend p _, fun p i hIndex => ?_, fun a b h => crcRem_xorBits h _,
    fun a e hLength h => crcCheck_xorBits hLength h⟩
  refine crcCheck_flipBit ?_ (crcCheck_crcAppend p _)
  rw [crcAppend, List.length_append, hRem]
  exact hIndex

/-! ## The commands (R124, R125, R126) -/

/-- The wire of a command is read back by its row of the table (R91, R100). -/
theorem decode_cmdWire_of_commandOf {op : Nat} {aux : BitVec 8} {p : Bits} {i : Instr} (hOp : op < 256)
    (hFits : p.length < 65536) (hRow : commandOf (BitVec.ofNat 8 op) aux p = some i) :
    decode .cmd (cmdWire op aux p) = .ok (i, []) := by
  rw [← List.append_nil (cmdWire op aux p), decode_cmdWire op aux p [] hOp hFits, hRow]

/-- R103: a first check that fails gives the status. -/
theorem runCommand_of_failing {c : Bool} (h : c = false) (st : Cond) (cs : List (Bool × Cond)) (d s : State) :
    runCommand ((c, st) :: cs) d s = .next (answered s (condCode st).toNat 0 []) := by
  rw [← refuse_eq_answered, h]
  rfl

/-- R103: a first check that holds leaves the command to the others. -/
theorem runCommand_of_holding {c : Bool} (h : c = true) (st : Cond) (cs : List (Bool × Cond)) (d s : State) :
    runCommand ((c, st) :: cs) d s = runCommand cs d s := by
  rw [h]
  rfl

theorem runCommand_nil (d s : State) : runCommand [] d s = .next d := rfl

/-- The three CRC commands make the same checks. -/
theorem exec_crcCommand {aux : BitVec 8} {p : Bits} {i : Instr}
    (h : i ∈ [Instr.crcRem aux p, .crcAppend aux p, .crcCheck aux p]) (s : State) :
    ∃ d, exec i s = runCommand (crcChecks s) d s := by
  simp only [List.mem_cons, List.not_mem_nil, or_false] at h
  rcases h with rfl | rfl | rfl
  · exact ⟨_, rfl⟩
  · exact ⟨_, rfl⟩
  · exact ⟨_, rfl⟩

/-- A CRC command whose two checks hold answers `OK` with its flag and data. -/
theorem runCommand_crcChecks {s : State} (hQuiet : quiescent s = true) (hGen : genOk s.cfg = true) (flag : Bool)
    {data : Bits} (hFits : data.length < 2 ^ 24) :
    runCommand (crcChecks s) (respond .ok flag data s) s = .next (answered s 0 flag.toNat data) := by
  rw [crcChecks, runCommand_of_holding hQuiet, runCommand_of_holding hGen, runCommand_nil,
    respond_eq_answered _ _ _ _ hFits]
  rfl

/-- Settles O10: the wire forms, the two refusals in their order, and the answer of each command. -/
theorem crcCommandsAnswer : Obligations.CrcCommandsAnswer := by
  intro aux p s hFits
  refine ⟨decode_cmdWire_of_commandOf (by omega) hFits rfl, decode_cmdWire_of_commandOf (by omega) hFits rfl,
    decode_cmdWire_of_commandOf (by omega) hFits rfl, ?busy, ?illegal, ?legal⟩
  case busy =>
    intro hBusy i hi
    obtain ⟨d, hExec⟩ := exec_crcCommand hi s
    rw [hExec, crcChecks, runCommand_of_failing hBusy]
    rfl
  case illegal =>
    intro hQuiet hGen i hi
    obtain ⟨d, hExec⟩ := exec_crcCommand hi s
    rw [hExec, crcChecks, runCommand_of_holding hQuiet, runCommand_of_failing hGen]
    rfl
  case legal =>
    intro hQuiet hGen
    have hRem : (crcRem p (genSeq s.cfg)).length ≤ 16 := by
      rw [length_crcRem_genSeq hGen, degR]
      have := length_genSeq_le hGen
      omega
    refine ⟨runCommand_crcChecks hQuiet hGen false ?_, runCommand_crcChecks hQuiet hGen false ?_,
      runCommand_crcChecks hQuiet hGen _ (by simp)⟩
    · omega
    · rw [crcAppend, List.length_append]
      omega

end Sys2Proof.Machine
end

section
/-! The Hamming unit (41_hamming.md): the syndrome as the XOR of the positions that hold a one, the block of `ham_enc`
(O31), what decoding makes of errors on it (O32, O33), and the answers of the two Hamming commands (O11, O12). -/

namespace Sys2Proof.Machine

/-! ## XOR over a list of positions -/

@[simp] theorem xorAll_nil : xorAll [] = false := rfl

@[simp] theorem xorAll_cons (b : Bool) (s : Bits) : xorAll (b :: s) = (b ^^ xorAll s) := rfl

theorem xorAll_map_xor (f g : Nat → Bool) (l : List Nat) :
    xorAll (l.map fun q => f q ^^ g q) = (xorAll (l.map f) ^^ xorAll (l.map g)) := by
  induction l with
  | nil => rfl
  | cons q l ih => simp only [List.map_cons, xorAll_cons, ih, Bool.xor_assoc, Bool.xor_left_comm]

/-- What a filter leaves out contributes a zero. -/
theorem xorAll_map_filter (p f : Nat → Bool) (l : List Nat) :
    xorAll ((l.filter p).map f) = xorAll (l.map fun q => p q && f q) := by
  induction l with
  | nil => rfl
  | cons q l ih => cases hp : p q <;> simp [hp, ih]

theorem filter_beq_of_mem {l : List Nat} (hNodup : l.Nodup) {a : Nat} (ha : a ∈ l) : l.filter (· == a) = [a] := by
  rw [List.filter_beq, List.count_eq_one_of_mem hNodup ha, List.replicate_one]

/-- One member taken out of an XOR. -/
theorem xorAll_map_eq_xor_rest {l : List Nat} (hNodup : l.Nodup) {a : Nat} (ha : a ∈ l) (f : Nat → Bool) :
    xorAll (l.map f) = (f a ^^ xorAll ((l.filter (· != a)).map f)) := by
  have hOne : xorAll (l.map fun q => (q == a) && f q) = f a := by
    rw [← xorAll_map_filter, filter_beq_of_mem hNodup ha]
    simp
  rw [xorAll_map_filter (· != a), ← hOne, ← xorAll_map_xor]
  congr 1
  refine List.map_congr_left fun q _ => ?_
  cases h : q == a <;> simp [bne, h]

/-- The XOR of a list of positions. -/
def xorOf (ps : List Nat) : Nat := ps.foldr (fun q a => q ^^^ a) 0

@[simp] theorem xorOf_nil : xorOf [] = 0 := rfl

@[simp] theorem xorOf_cons (q : Nat) (ps : List Nat) : xorOf (q :: ps) = q ^^^ xorOf ps := rfl

theorem testBit_xorOf (ps : List Nat) (j : Nat) : (xorOf ps).testBit j = xorAll (ps.map fun q => q.testBit j) := by
  induction ps with
  | nil => exact Nat.zero_testBit j
  | cons q ps ih => rw [xorOf_cons, Nat.testBit_xor, ih, List.map_cons, xorAll_cons]

theorem xorOf_lt {ps : List Nat} {n : Nat} (h : ∀ q ∈ ps, q < 2 ^ n) : xorOf ps < 2 ^ n := by
  induction ps with
  | nil => exact Nat.two_pow_pos n
  | cons q ps ih =>
    obtain ⟨hq, hps⟩ := List.forall_mem_cons.mp h
    exact Nat.xor_lt_two_pow hq (ih hps)

/-- Positions selected by `f` or by `g` but not by both. -/
theorem xorOf_filter_xor (f g : Nat → Bool) (l : List Nat) :
    xorOf (l.filter fun q => f q ^^ g q) = xorOf (l.filter f) ^^^ xorOf (l.filter g) := by
  refine Nat.eq_of_testBit_eq fun j => ?_
  rw [Nat.testBit_xor, testBit_xorOf, testBit_xorOf, testBit_xorOf, xorAll_map_filter, xorAll_map_filter,
    xorAll_map_filter, ← xorAll_map_xor]
  simp only [Bool.and_xor_distrib_right]

/-! ## The positions of a block (R141) -/

theorem mem_positions {v : BitVec 1} {q : Nat} : q ∈ positions v ↔ 1 ≤ q ∧ q ≤ blockN v := by
  rw [positions, List.mem_range'_1]
  omega

theorem nodup_positions (v : BitVec 1) : (positions v).Nodup := List.nodup_range' 1

@[simp] theorem length_positions (v : BitVec 1) : (positions v).length = blockN v := List.length_range'

/-- Every parity bit has its position in the block. -/
theorem two_pow_le_blockN : ∀ (v : BitVec 1), ∀ j < parityMP v, 2 ^ j ≤ blockN v := by decide

/-- The syndrome is wide enough to name every position. -/
theorem blockN_lt_two_pow : ∀ v : BitVec 1, blockN v < 2 ^ parityMP v := by decide

theorem blockN_le : ∀ v : BitVec 1, blockN v ≤ 71 := by decide

theorem isParityPos_iff {q : Nat} (hq : 1 ≤ q) : isParityPos q = true ↔ ∃ j, q = 2 ^ j := by
  rw [isParityPos, beq_iff_eq, Nat.and_sub_one_eq_zero_iff_isPowerOfTwo (Nat.ne_of_gt hq), Nat.isPowerOfTwo]

theorem isParityPos_two_pow (j : Nat) : isParityPos (2 ^ j) = true :=
  (isParityPos_iff Nat.one_le_two_pow).mpr ⟨j, rfl⟩

theorem mem_dataPositions_iff_not_isParityPos {v : BitVec 1} {q : Nat} :
    q ∈ dataPositions v ↔ q ∈ positions v ∧ isParityPos q = false := by
  rw [dataPositions, List.mem_filter, Bool.not_eq_true']

theorem mem_dataPositions {v : BitVec 1} {q : Nat} :
    q ∈ dataPositions v ↔ 1 ≤ q ∧ q ≤ blockN v ∧ ∀ j, q ≠ 2 ^ j := by
  rw [mem_dataPositions_iff_not_isParityPos, mem_positions, ← Bool.not_eq_true, and_assoc]
  refine and_congr_right fun hq => ?_
  rw [isParityPos_iff hq, not_exists]

theorem sorted_dataPositions (v : BitVec 1) : (dataPositions v).Pairwise (fun p q => p < q) :=
  (List.pairwise_lt_range' 1).filter _

theorem nodup_dataPositions (v : BitVec 1) : (dataPositions v).Nodup := (nodup_positions v).filter _

theorem length_dataPositions : ∀ v : BitVec 1, (dataPositions v).length = dataK v := by decide

theorem nodup_coveredBy (v : BitVec 1) (m : Nat) : (coveredBy v m).Nodup := (nodup_positions v).filter _

/-- R141: `C_j` by the bit `j` of a position. -/
theorem coveredBy_two_pow (v : BitVec 1) (j : Nat) :
    coveredBy v (2 ^ j) = (positions v).filter fun q => q.testBit j := by
  refine List.filter_congr fun q _ => ?_
  rw [Nat.and_two_pow]
  cases q.testBit j <;> simp

/-- R142: no `C_j` contains another parity position. -/
theorem not_isParityPos_of_mem_coveredBy {v : BitVec 1} {j q : Nat} (hq : q ∈ coveredBy v (2 ^ j))
    (hNe : q ≠ 2 ^ j) :
    isParityPos q = false := by
  rw [coveredBy_two_pow, List.mem_filter, mem_positions] at hq
  obtain ⟨⟨hPos, _⟩, hBit⟩ := hq
  rw [← Bool.not_eq_true, isParityPos_iff hPos]
  rintro ⟨i, rfl⟩
  rw [Nat.testBit_two_pow, decide_eq_true_eq] at hBit
  exact hNe (congrArg _ hBit)

/-! ## Reading a block at its positions -/

/-- A block given position by position. -/
theorem bitAt_map_positions {v : BitVec 1} {q : Nat} (hq : q ∈ positions v) (f : Nat → Bool) :
    bitAt ((positions v).map f) q = f q := by
  obtain ⟨hPos, hLe⟩ := mem_positions.mp hq
  have hPlace : 1 + (q - 1) = q := by omega
  have hIndex : q - 1 < blockN v := by omega
  simp [bitAt, positions, hIndex, hPlace]

/-- A block is what its positions hold. -/
theorem map_bitAt_positions {v : BitVec 1} {c : Bits} (hLength : c.length = blockN v) :
    (positions v).map (bitAt c) = c := by
  refine List.ext_getElem (by simp [hLength]) fun i hi hi' => ?_
  simp [bitAt, positions, hi']

theorem length_flipBit (c : Bits) (i : Nat) : (flipBit c i).length = c.length := List.length_modify _ _ _

theorem flipBit_flipBit (c : Bits) (i : Nat) : flipBit (flipBit c i) i = c := by
  rw [flipBit, flipBit, List.modify_modify_eq, Bool.involutive_not.comp_self, List.modify_id]

/-- R7: flipping the bit at a position changes it and no other. -/
theorem bitAt_flipBit {c : Bits} {p q : Nat} (hp : 1 ≤ p) (hq : 1 ≤ q) (hLe : q ≤ c.length) :
    bitAt (flipBit c (p - 1)) q = (bitAt c q ^^ (q == p)) := by
  have hIndex : q - 1 < c.length := by omega
  have hSame : p - 1 = q - 1 ↔ q = p := by omega
  by_cases h : q = p
  · subst h
    simp [bitAt, flipBit, hIndex]
  · simp [bitAt, flipBit, hIndex, hSame, h, beq_eq_false_iff_ne.mpr h]

/-! ## The syndrome (R143) -/

/-- A sum of powers of two has the bits it is built from. -/
theorem testBit_sum_two_pow (f : Nat → Bool) (n k : Nat) :
    (((List.range n).map fun j => if f j then 2 ^ j else 0).sum).testBit k = (decide (k < n) && f k) := by
  induction n generalizing k with
  | zero => simp
  | succ n ih =>
    rw [List.range_succ, List.map_append, List.sum_append, List.map_singleton, List.sum_singleton]
    generalize ((List.range n).map fun j => if f j then 2 ^ j else 0).sum = low at ih
    have hLow : low < 2 ^ n := Nat.lt_pow_two_of_testBit low fun i hi => by simp [ih, Nat.not_lt.mpr hi]
    have hOr : low + (if f n then 2 ^ n else 0) = (if f n then 2 ^ n else 0) ||| low := by
      cases f n
      · simp
      · have := Nat.two_pow_add_eq_or_of_lt hLow 1
        rwa [mul_one, add_comm] at this
    rw [hOr, Nat.testBit_or, ih]
    rcases Nat.lt_trichotomy k n with hk | rfl | hk
    · cases h : f n <;> simp [hk, Nat.ne_of_gt hk, Nat.lt_succ_of_lt hk]
    · cases f k <;> simp
    · have hNot : ¬ k < n + 1 := by omega
      cases h : f n <;> simp [Nat.not_lt_of_gt hk, Nat.ne_of_lt hk, hNot]

/-- R143: bit `j` of the syndrome is the XOR over `C_j`. -/
theorem testBit_syndrome (v : BitVec 1) (c : Bits) (j : Nat) :
    (syndrome v c).testBit j = (decide (j < parityMP v) && xorAll ((coveredBy v (2 ^ j)).map (bitAt c))) :=
  testBit_sum_two_pow (fun j => xorAll ((coveredBy v (2 ^ j)).map (bitAt c))) _ _

/-- R143: column `q` of the parity check is `q` itself, so the syndrome is the XOR of the positions that hold a one. -/
theorem syndrome_eq_xorOf (v : BitVec 1) (c : Bits) : syndrome v c = xorOf ((positions v).filter (bitAt c)) := by
  have hLt : xorOf ((positions v).filter (bitAt c)) < 2 ^ parityMP v := xorOf_lt fun q hq =>
    (mem_positions.mp (List.mem_of_mem_filter hq)).right.trans_lt (blockN_lt_two_pow v)
  refine Nat.eq_of_testBit_eq fun j => ?_
  rw [testBit_syndrome]
  by_cases hj : j < parityMP v
  · rw [coveredBy_two_pow, testBit_xorOf, xorAll_map_filter, xorAll_map_filter]
    simp [hj, Bool.and_comm]
  · have hBit := Nat.testBit_lt_two_pow (hLt.trans_le (Nat.pow_le_pow_right Nat.two_pos (Nat.not_lt.mp hj)))
    simp [hj, hBit]

theorem syndrome_lt (v : BitVec 1) (c : Bits) : syndrome v c < 2 ^ parityMP v :=
  Nat.lt_pow_two_of_testBit _ fun j hj => by rw [testBit_syndrome, decide_eq_false (Nat.not_lt.mpr hj), Bool.false_and]

/-- R150: an error at a position adds that position to the syndrome. -/
theorem syndrome_flipBit {v : BitVec 1} {c : Bits} (hLength : c.length = blockN v) {p : Nat} (hp : 1 ≤ p)
    (hLe : p ≤ blockN v) : syndrome v (flipBit c (p - 1)) = syndrome v c ^^^ p := by
  have hOnes : (positions v).filter (bitAt (flipBit c (p - 1))) = (positions v).filter fun q => bitAt c q ^^ (q == p) :=
    List.filter_congr fun q hq => by
      obtain ⟨hPos, hIn⟩ := mem_positions.mp hq
      exact bitAt_flipBit hp hPos (hLength ▸ hIn)
  rw [syndrome_eq_xorOf, hOnes, xorOf_filter_xor, ← syndrome_eq_xorOf,
    filter_beq_of_mem (nodup_positions v) (mem_positions.mpr ⟨hp, hLe⟩), xorOf_cons, xorOf_nil, Nat.xor_zero]

theorem syndrome_flipPositions {v : BitVec 1} {c : Bits} (hLength : c.length = blockN v) {ps : List Nat}
    (h : ∀ q ∈ ps, 1 ≤ q ∧ q ≤ blockN v) :
    syndrome v (flipPositions c ps) = ps.foldl (fun a q => a ^^^ q) (syndrome v c) := by
  induction ps generalizing c with
  | nil => rfl
  | cons p ps ih =>
    obtain ⟨⟨hp, hLe⟩, hps⟩ := List.forall_mem_cons.mp h
    rw [List.foldl_cons, ← syndrome_flipBit hLength hp hLe]
    exact ih ((length_flipBit c _).trans hLength) hps

/-! ## Encoding (R142) -/

theorem length_hamEnc (v : BitVec 1) (d : Bits) : (hamEnc v d).length = blockN v := by
  rw [hamEnc, List.length_map, length_positions]

theorem bitAt_hamEnc {v : BitVec 1} {q : Nat} (hq : q ∈ positions v) (d : Bits) :
    bitAt (hamEnc v d) q = if isParityPos q then parityBit v (placeData v d) q else bitAt (placeData v d) q :=
  bitAt_map_positions hq _

theorem bitAt_placeData {v : BitVec 1} {q : Nat} (hq : q ∈ positions v) (d : Bits) :
    bitAt (placeData v d) q = if isParityPos q then false else d.getD ((dataPositions v).idxOf q) false :=
  bitAt_map_positions hq _

/-- R141: data bit `t` is at position `D[t]`. -/
theorem bitAt_hamEnc_dataPosition {v : BitVec 1} {t : Nat} (ht : t < (dataPositions v).length) (d : Bits) :
    bitAt (hamEnc v d) (dataPositions v)[t] = d.getD t false := by
  obtain ⟨hq, hData⟩ := mem_dataPositions_iff_not_isParityPos.mp (List.getElem_mem ht)
  rw [bitAt_hamEnc hq, bitAt_placeData hq, hData, (nodup_dataPositions v).idxOf_getElem]
  rfl

theorem length_extractData (v : BitVec 1) (c : Bits) : (extractData v c).length = dataK v := by
  rw [extractData, List.length_map, length_dataPositions]

theorem extractData_hamEnc {v : BitVec 1} {d : Bits} (h : d.length = dataK v) : extractData v (hamEnc v d) = d := by
  refine List.ext_getElem ((length_extractData v _).trans h.symm) fun t ht ht' => ?_
  rw [extractData, List.length_map] at ht
  simp only [extractData, List.getElem_map]
  rw [bitAt_hamEnc_dataPosition ht, List.getD_eq_getElem _ _ ht']

/-- R142: even parity; the parity bit is the XOR of the rest of its set, where the block holds only data. -/
theorem xorAll_coveredBy_hamEnc {v : BitVec 1} {j : Nat} (hj : j < parityMP v) (d : Bits) :
    xorAll ((coveredBy v (2 ^ j)).map (bitAt (hamEnc v d))) = false := by
  have hPos : 2 ^ j ∈ positions v := mem_positions.mpr ⟨Nat.one_le_two_pow, two_pow_le_blockN v j hj⟩
  have hMem : 2 ^ j ∈ coveredBy v (2 ^ j) := by
    rw [coveredBy_two_pow]
    exact List.mem_filter.mpr ⟨hPos, Nat.testBit_two_pow_self⟩
  have hParity : bitAt (hamEnc v d) (2 ^ j) = parityBit v (placeData v d) (2 ^ j) := by
    rw [bitAt_hamEnc hPos, isParityPos_two_pow]
    rfl
  have hRest : ((coveredBy v (2 ^ j)).filter (· != 2 ^ j)).map (bitAt (hamEnc v d)) =
      ((coveredBy v (2 ^ j)).filter (· != 2 ^ j)).map (bitAt (placeData v d)) := by
    refine List.map_congr_left fun q hq => ?_
    obtain ⟨hCovered, hNe⟩ := List.mem_filter.mp hq
    rw [bitAt_hamEnc (List.mem_of_mem_filter hCovered), not_isParityPos_of_mem_coveredBy hCovered (bne_iff_ne.mp hNe)]
    rfl
  rw [xorAll_map_eq_xor_rest (nodup_coveredBy v _) hMem, hParity, hRest, parityBit, Bool.xor_self]

theorem syndrome_hamEnc (v : BitVec 1) (d : Bits) : syndrome v (hamEnc v d) = 0 := by
  refine Nat.eq_of_testBit_eq fun j => ?_
  rw [testBit_syndrome, Nat.zero_testBit]
  by_cases hj : j < parityMP v
  · rw [xorAll_coveredBy_hamEnc hj, Bool.and_false]
  · rw [decide_eq_false hj, Bool.false_and]

/-- Settles O31: the data at `D` and even parity over every `C_j`. -/
theorem hamEncPlacesDataWithEvenParity : Obligations.HamEncPlacesDataWithEvenParity := fun v d h =>
  ⟨sorted_dataPositions v, fun _ => mem_dataPositions, length_hamEnc v d, length_dataPositions v,
    extractData_hamEnc h, fun j hj => coveredBy_two_pow v j ▸ xorAll_coveredBy_hamEnc hj d⟩

/-! ## Linearity (R149 (c)) -/

theorem getD_xorBits {a b : Bits} (h : a.length = b.length) (i : Nat) :
    (xorBits a b).getD i false = (a.getD i false ^^ b.getD i false) := by
  by_cases hi : i < a.length
  · have hi' : i < b.length := h ▸ hi
    simp [xorBits, hi, hi']
  · have hi' : ¬ i < b.length := h ▸ hi
    simp [xorBits, hi, hi']

theorem bitAt_xorBits {a b : Bits} (h : a.length = b.length) (q : Nat) :
    bitAt (xorBits a b) q = (bitAt a q ^^ bitAt b q) := getD_xorBits h _

/-- XOR of two blocks that are given position by position. -/
theorem xorBits_map (f g : Nat → Bool) (l : List Nat) :
    xorBits (l.map f) (l.map g) = l.map fun q => f q ^^ g q := by
  rw [xorBits, List.zipWith_map, List.zipWith_self]

theorem placeData_xorBits {a b : Bits} (h : a.length = b.length) (v : BitVec 1) :
    placeData v (xorBits a b) = xorBits (placeData v a) (placeData v b) := by
  rw [placeData, placeData, placeData, xorBits_map]
  refine List.map_congr_left fun q _ => ?_
  cases isParityPos q
  · exact getD_xorBits h _
  · rfl

theorem parityBit_xorBits {a b : Bits} (h : a.length = b.length) (v : BitVec 1) (m : Nat) :
    parityBit v (xorBits a b) m = (parityBit v a m ^^ parityBit v b m) := by
  rw [parityBit, parityBit, parityBit, ← xorAll_map_xor]
  exact congrArg xorAll (List.map_congr_left fun q _ => bitAt_xorBits h q)

theorem hamEnc_xorBits {a b : Bits} (h : a.length = b.length) (v : BitVec 1) :
    hamEnc v (xorBits a b) = xorBits (hamEnc v a) (hamEnc v b) := by
  have hPlaced : (placeData v a).length = (placeData v b).length := by simp [placeData]
  rw [hamEnc, hamEnc, hamEnc, placeData_xorBits h, xorBits_map]
  refine List.map_congr_left fun q _ => ?_
  cases isParityPos q
  · exact bitAt_xorBits hPlaced q
  · exact parityBit_xorBits hPlaced v q

/-! ## Decoding (R143, R149) -/

theorem hamDec_of_syndrome_zero {v : BitVec 1} {c : Bits} (h : syndrome v c = 0) :
    hamDec v c = some (extractData v c, false) := by
  rw [hamDec, h]
  rfl

theorem hamDec_of_syndrome_position {v : BitVec 1} {c : Bits} {p : Nat} (h : syndrome v c = p) (hp : 1 ≤ p)
    (hLe : p ≤ blockN v) : hamDec v c = some (extractData v (flipBit c (p - 1)), true) := by
  rw [hamDec, h]
  exact (if_neg (Nat.ne_of_gt hp)).trans (if_pos hLe)

/-- R143: `InvalidSyndrome` is a syndrome beyond the block. -/
theorem hamDec_eq_none_iff {v : BitVec 1} {c : Bits} : hamDec v c = none ↔ blockN v < syndrome v c := by
  rcases Nat.eq_zero_or_pos (syndrome v c) with hZero | hPos
  · simp [hamDec_of_syndrome_zero hZero, hZero]
  · by_cases hLe : syndrome v c ≤ blockN v
    · simp [hamDec_of_syndrome_position rfl hPos hLe, hLe]
    · have hNone : hamDec v c = none := (if_neg (Nat.ne_of_gt hPos)).trans (if_neg hLe)
      simp [hNone, Nat.not_le.mp hLe]

/-- Decoded data have `K` bits. -/
theorem length_of_hamDec {v : BitVec 1} {c d : Bits} {cor : Bool} (h : hamDec v c = some (d, cor)) :
    d.length = dataK v := by
  simp only [hamDec] at h
  split at h
  · cases h; exact length_extractData v _
  · split at h
    · cases h; exact length_extractData v _
    · cases h

/-- R149 (a). -/
theorem hamDec_hamEnc {v : BitVec 1} {d : Bits} (h : d.length = dataK v) : hamDec v (hamEnc v d) = some (d, false) := by
  rw [hamDec_of_syndrome_zero (syndrome_hamEnc v d), extractData_hamEnc h]

/-- R150: the errors on a block are all its syndrome sees. -/
theorem syndrome_flipPositions_hamEnc (v : BitVec 1) (d : Bits) {ps : List Nat}
    (h : ∀ q ∈ ps, 1 ≤ q ∧ q ≤ blockN v) :
    syndrome v (flipPositions (hamEnc v d) ps) = ps.foldl (fun a q => a ^^^ q) 0 := by
  rw [syndrome_flipPositions (length_hamEnc v d) h, syndrome_hamEnc]

/-- R149 (b): the syndrome of a single error is its position. -/
theorem syndrome_flipBit_hamEnc {v : BitVec 1} {i : Nat} (hi : i < blockN v) (d : Bits) :
    syndrome v (flipBit (hamEnc v d) i) = i + 1 := by
  have h := syndrome_flipBit (length_hamEnc v d) (Nat.le_add_left 1 i) hi
  rwa [syndrome_hamEnc, Nat.zero_xor] at h

/-- R149 (b): a single error is taken back. -/
theorem hamDec_flipBit_hamEnc {v : BitVec 1} {d : Bits} (h : d.length = dataK v) {i : Nat} (hi : i < blockN v) :
    hamDec v (flipBit (hamEnc v d) i) = some (d, true) := by
  rw [hamDec_of_syndrome_position (syndrome_flipBit_hamEnc hi d) (Nat.le_add_left 1 i) hi, Nat.add_sub_cancel,
    flipBit_flipBit, extractData_hamEnc h]

/-! ## The minimum distance (R149 (d)) -/

theorem onesOf_eq_length_filter {v : BitVec 1} {c : Bits} (hLength : c.length = blockN v) :
    onesOf c = ((positions v).filter (bitAt c)).length := by
  conv_lhs => rw [← map_bitAt_positions hLength]
  rw [onesOf, List.count, List.countP_map, ← List.countP_eq_length_filter]
  simp [Function.comp_def]

/-- Fewer than three distinct positions, none of them 0, do not cancel. -/
theorem three_le_length_of_xorOf_eq_zero {ps : List Nat} (hNodup : ps.Nodup) (hPos : ∀ q ∈ ps, 1 ≤ q)
    (hNe : ps ≠ []) (hXor : xorOf ps = 0) : 3 ≤ ps.length := by
  match ps with
  | [] => exact absurd rfl hNe
  | [p] =>
    have hp : 1 ≤ p := hPos p (by simp)
    have hZero : p = 0 := by simpa using hXor
    omega
  | [p, q] =>
    have hEq : p = q := by simpa using hXor
    simp [hEq] at hNodup
  | _ :: _ :: _ :: ps => simp

/-- A block without a one holds zero data. -/
theorem eq_zeros_of_filter_eq_nil {v : BitVec 1} {d : Bits} (h : d.length = dataK v)
    (hOnes : (positions v).filter (bitAt (hamEnc v d)) = []) : d = zeros (dataK v) := by
  rw [← extractData_hamEnc h, ← length_dataPositions, extractData, zeros, List.map_eq_replicate_iff]
  intro q hq
  exact Bool.eq_false_iff.mpr (List.filter_eq_nil_iff.mp hOnes q (List.mem_of_mem_filter hq))

/-- R149 (d): the positions of a block's ones cancel, so there are at least three. -/
theorem three_le_onesOf_hamEnc {v : BitVec 1} {d : Bits} (h : d.length = dataK v) (hNe : d ≠ zeros (dataK v)) :
    3 ≤ onesOf (hamEnc v d) := by
  rw [onesOf_eq_length_filter (length_hamEnc v d)]
  refine three_le_length_of_xorOf_eq_zero ((nodup_positions v).filter _) (fun q hq => ?_)
    (fun hNil => hNe (eq_zeros_of_filter_eq_nil h hNil)) ?_
  · exact (mem_positions.mp (List.mem_of_mem_filter hq)).left
  · rw [← syndrome_eq_xorOf, syndrome_hamEnc]

/-- Settles O32: round trip, single errors, linearity and distance. -/
theorem hammingCorrectsEverySingleError : Obligations.HammingCorrectsEverySingleError := fun v d h =>
  ⟨hamDec_hamEnc h, fun _ hi => ⟨syndrome_flipBit_hamEnc hi d, hamDec_flipBit_hamEnc h hi⟩,
    fun _ hb => hamEnc_xorBits (h.trans hb.symm) v, three_le_onesOf_hamEnc h⟩

/-- Settles O33: with (7,4) every syndrome is a position of the block; with (71,64) those above 71 are not. -/
theorem syndromeIsTheXorOfTheErrors : Obligations.SyndromeIsTheXorOfTheErrors := by
  refine ⟨fun v d ps _ h => syndrome_flipPositions_hamEnc v d h, fun c hNone => ?_, fun c => ?_⟩
  · have hBeyond : 7 < syndrome 0 c := hamDec_eq_none_iff.mp hNone
    have hWidth : syndrome 0 c < 2 ^ 3 := syndrome_lt 0 c
    omega
  · have hBeyond : hamDec 1 c = none ↔ 71 < syndrome 1 c := hamDec_eq_none_iff
    have hWidth : syndrome 1 c < 2 ^ 7 := syndrome_lt 1 c
    rw [hBeyond]
    omega

/-! ## The commands (R147, R148) -/

theorem exec_hamEnc (aux : BitVec 8) (p : Bits) (s : State) : exec (.hamEnc aux p) s = execHamEnc aux p s := rfl

theorem exec_hamDec (aux : BitVec 8) (p : Bits) (s : State) : exec (.hamDec aux p) s = execHamDec aux p s := rfl

/-- R103: the two checks of a Hamming command, in their order. -/
theorem runCommand_quiescent_length (p : Bits) (n : Nat) (st : Cond) (d s : State) :
    runCommand [(quiescent s, .busy), (decide (p.length = n), st)] d s = .next (
      if quiescent s = false then answered s 9 0 []
      else if p.length ≠ n then answered s (condCode st).toNat 0 []
      else d) := by
  by_cases hQuiet : quiescent s = false
  · rw [if_pos hQuiet, runCommand_of_failing hQuiet]
    rfl
  · rw [if_neg hQuiet, runCommand_of_holding (Bool.eq_true_of_not_eq_false hQuiet)]
    by_cases hLength : p.length = n
    · rw [if_neg (not_not_intro hLength), runCommand_of_holding (decide_eq_true hLength), runCommand_nil]
    · rw [if_pos hLength, runCommand_of_failing (decide_eq_false hLength)]

/-- Settles O11: the wire form, the two refusals in their order, and the block. -/
theorem hamEncCommandAnswers : Obligations.HamEncCommandAnswers := by
  intro aux p s hFits
  refine ⟨decode_cmdWire_of_commandOf (by omega) hFits rfl, ?_⟩
  have hBlock : (hamEnc s.cfg.variant p).length < 2 ^ 24 := by
    rw [length_hamEnc]
    exact (blockN_le _).trans_lt (by omega)
  rw [exec_hamEnc, execHamEnc, runCommand_quiescent_length, respond_eq_answered _ _ _ _ hBlock]
  rfl

/-- R148: `INVALID_SYNDROME` without data, or the data with the flag `corrected`. -/
theorem respondHamDec_eq (v : BitVec 1) (p : Bits) (s : State) :
    respondHamDec v p s =
      match hamDec v p with
      | none => answered s 2 0 []
      | some (d, cor) => answered s 0 cor.toNat d := by
  rw [respondHamDec]
  rcases h : hamDec v p with _ | ⟨d, cor⟩
  · exact refuse_eq_answered _ _
  · have hData : d.length ≤ 71 := (length_of_hamDec h).trans_le ((Nat.le_add_right _ _).trans (blockN_le v))
    exact respond_eq_answered _ _ _ _ (hData.trans_lt (by omega))

/-- Settles O12: the wire form, the two refusals in their order, and the three answers of the decoder. -/
theorem hamDecCommandAnswers : Obligations.HamDecCommandAnswers := by
  intro aux p s hFits
  refine ⟨decode_cmdWire_of_commandOf (by omega) hFits rfl, ?_⟩
  rw [exec_hamDec, execHamDec, runCommand_quiescent_length, respondHamDec_eq]
  rfl

end Sys2Proof.Machine
end

section
/-! The interleaver unit (42_interleaver.md): both permutations as one transposition of a table of bits, where it puts
each bit (O34), what it keeps (O35), and the answers of the two interleaver commands (O13). -/

namespace Sys2Proof.Machine

/-! ## A table of bits, row by row -/

/-- The bits `f i c` of a table with `n` rows and `m` columns, row after row. -/
def table (n m : Nat) (f : Nat → Nat → Bool) : Bits := (List.range n).flatMap fun i => (List.range m).map (f i)

theorem row_of_place {m c : Nat} (hc : c < m) (i : Nat) : (i * m + c) / m = i := by
  rw [Nat.mul_comm, Nat.mul_add_div (by omega), Nat.div_eq_of_lt hc, Nat.add_zero]

theorem place_lt {n m i c : Nat} (hi : i < n) (hc : c < m) : i * m + c < n * m :=
  calc i * m + c < (i + 1) * m := by rw [Nat.succ_mul]; exact Nat.add_lt_add_left hc _
    _ ≤ n * m := Nat.mul_le_mul_right m hi

/-- Bit `k` of a table stands in row `k / m`, column `k % m`. -/
theorem table_eq_map_range (n m : Nat) (f : Nat → Nat → Bool) :
    table n m f = (List.range (n * m)).map fun k => f (k / m) (k % m) := by
  induction n with
  | zero => simp [table]
  | succ n ih =>
    have hRow : (List.range m).map (f n) = (List.range m).map fun c => f ((n * m + c) / m) ((n * m + c) % m) := by
      refine List.map_congr_left fun c hc => ?_
      have hc : c < m := List.mem_range.mp hc
      rw [row_of_place hc, Nat.mul_add_mod_of_lt hc]
    calc table (n + 1) m f
        = table n m f ++ (List.range m).map (f n) := by simp [table, List.range_succ]
      _ = (List.range ((n + 1) * m)).map fun k => f (k / m) (k % m) := by
        rw [ih, hRow, Nat.succ_mul, List.range_add, List.map_append, List.map_map]
        rfl

theorem length_table (n m : Nat) (f : Nat → Nat → Bool) : (table n m f).length = n * m := by
  simp [table_eq_map_range]

theorem getD_table {n m i c : Nat} (hi : i < n) (hc : c < m) (f : Nat → Nat → Bool) :
    (table n m f).getD (i * m + c) false = f i c := by
  simp [table_eq_map_range, place_lt hi hc, row_of_place hc, Nat.mul_add_mod_of_lt hc]

/-- A sequence is the table of its own bits. -/
theorem eq_table {n m : Nat} {x : Bits} {f : Nat → Nat → Bool} (hLength : x.length = n * m)
    (h : ∀ i < n, ∀ c < m, x.getD (i * m + c) false = f i c) : x = table n m f := by
  rw [table_eq_map_range]
  refine List.ext_getElem (by simpa using hLength) fun k hk _ => ?_
  have hPlace : k < m * n := by rw [Nat.mul_comm, ← hLength]; exact hk
  have hColumns : 0 < m := Nat.pos_of_mul_pos_right (Nat.zero_lt_of_lt hPlace)
  have hBit := h (k / m) (Nat.div_lt_of_lt_mul hPlace) (k % m) (Nat.mod_lt k hColumns)
  rw [Nat.mul_comm, Nat.div_add_mod, List.getD_eq_getElem _ _ hk] at hBit
  simpa using hBit

/-- Read by columns, a table holds the same bits. -/
theorem table_perm_swap (n m : Nat) (f : Nat → Nat → Bool) : (table n m f).Perm (table m n fun c i => f i c) := by
  have h := Multiset.bind_map_comm (List.range n : Multiset Nat) (List.range m : Multiset Nat) (f := f)
  simpa [table] using h

/-! ## Transposition (R171, R172) -/

/-- The `m` rows of `n` bits in `x`, read by columns. -/
def transpose (n m : Nat) (x : Bits) : Bits := table n m fun i c => x.getD (c * n + i) false

theorem ilv_eq_transpose {m l : Nat} {x : Bits} (hm : 1 ≤ m) (h : x.length = m * l) : ilv x m = transpose l m x := by
  rw [ilv, h, Nat.mul_div_cancel_left l hm]
  rfl

theorem dilv_eq_transpose {m l : Nat} {x : Bits} (hm : 1 ≤ m) (h : x.length = m * l) :
    dilv x m = transpose m l x := by
  rw [dilv, h, Nat.mul_div_cancel_left l hm]
  rfl

theorem length_transpose (n m : Nat) (x : Bits) : (transpose n m x).length = n * m := length_table n m _

theorem getD_transpose {n m i c : Nat} (hi : i < n) (hc : c < m) (x : Bits) :
    (transpose n m x).getD (i * m + c) false = x.getD (c * n + i) false := getD_table hi hc _

/-- R175 (a). -/
theorem transpose_transpose {n m : Nat} {x : Bits} (h : x.length = m * n) : transpose m n (transpose n m x) = x :=
  (eq_table h fun _ hc _ hi => (getD_transpose hi hc x).symm).symm

/-- R175 (b). -/
theorem transpose_xorBits {x y : Bits} (h : x.length = y.length) (n m : Nat) :
    transpose n m (xorBits x y) = xorBits (transpose n m x) (transpose n m y) := by
  simp only [transpose, table_eq_map_range, xorBits_map, getD_xorBits h]

/-- R175 (c): the transposed sequence holds the bits of the sequence in another order. -/
theorem onesOf_transpose {n m : Nat} {x : Bits} (h : x.length = m * n) : onesOf (transpose n m x) = onesOf x := by
  have hTable : x = table m n fun c i => x.getD (c * n + i) false := eq_table h fun _ _ _ _ => rfl
  have hPerm : (transpose n m x).Perm x := (table_perm_swap n m _).trans (.of_eq hTable.symm)
  exact hPerm.count_eq true

theorem transpose_one_row {n : Nat} {x : Bits} (h : x.length = n) : transpose n 1 x = x := by
  refine (eq_table (by rw [h, Nat.mul_one]) fun i _ c hc => ?_).symm
  obtain rfl : c = 0 := Nat.lt_one_iff.mp hc
  simp

theorem transpose_one_column {n : Nat} {x : Bits} (h : x.length = n) : transpose 1 n x = x := by
  refine (eq_table (by rw [h, Nat.one_mul]) fun i hi c _ => ?_).symm
  obtain rfl : i = 0 := Nat.lt_one_iff.mp hi
  simp

theorem length_ilv {m l : Nat} {x : Bits} (hm : 1 ≤ m) (h : x.length = m * l) : (ilv x m).length = m * l := by
  rw [ilv_eq_transpose hm h, length_transpose, Nat.mul_comm]

theorem length_dilv {m l : Nat} {x : Bits} (hm : 1 ≤ m) (h : x.length = m * l) : (dilv x m).length = m * l := by
  rw [dilv_eq_transpose hm h, length_transpose]

/-- Settles O34: both loops fill a table, so each bit stands at its row and column. -/
theorem interleaverMovesEachBit : Obligations.InterleaverMovesEachBit := by
  intro m l x hm h
  refine ⟨length_ilv hm h, length_dilv hm h, fun i hi c hc => ?_⟩
  rw [ilv_eq_transpose hm h, dilv_eq_transpose hm h]
  exact ⟨getD_transpose hi hc x, getD_transpose hc hi x⟩

/-! ## What the permutations keep (R175) -/

theorem dilv_ilv {m l : Nat} {x : Bits} (hm : 1 ≤ m) (h : x.length = m * l) : dilv (ilv x m) m = x := by
  rw [dilv_eq_transpose hm (length_ilv hm h), ilv_eq_transpose hm h, transpose_transpose h]

theorem ilv_dilv {m l : Nat} {x : Bits} (hm : 1 ≤ m) (h : x.length = m * l) : ilv (dilv x m) m = x := by
  rw [ilv_eq_transpose hm (length_dilv hm h), dilv_eq_transpose hm h, transpose_transpose (h.trans (Nat.mul_comm m l))]

theorem ilv_xorBits {m l : Nat} {x y : Bits} (hm : 1 ≤ m) (hx : x.length = m * l) (hy : y.length = m * l) :
    ilv (xorBits x y) m = xorBits (ilv x m) (ilv y m) := by
  have hEq : x.length = y.length := hx.trans hy.symm
  rw [ilv_eq_transpose hm ((length_xorBits hEq).trans hx), ilv_eq_transpose hm hx, ilv_eq_transpose hm hy,
    transpose_xorBits hEq]

theorem onesOf_ilv {m l : Nat} {x : Bits} (hm : 1 ≤ m) (h : x.length = m * l) : onesOf (ilv x m) = onesOf x := by
  rw [ilv_eq_transpose hm h, onesOf_transpose h]

theorem onesOf_dilv {m l : Nat} {x : Bits} (hm : 1 ≤ m) (h : x.length = m * l) : onesOf (dilv x m) = onesOf x := by
  rw [dilv_eq_transpose hm h, onesOf_transpose (h.trans (Nat.mul_comm m l))]

/-- R175 (d): one codeword. -/
theorem ilv_one (x : Bits) : ilv x 1 = x := by
  rw [ilv_eq_transpose le_rfl (Nat.one_mul _).symm, transpose_one_row rfl]

theorem dilv_one (x : Bits) : dilv x 1 = x := by
  rw [dilv_eq_transpose le_rfl (Nat.one_mul _).symm, transpose_one_column rfl]

/-- R175 (d): codewords of one bit. -/
theorem ilv_length {m : Nat} {x : Bits} (hm : 1 ≤ m) (h : x.length = m) : ilv x m = x := by
  rw [ilv_eq_transpose hm (h.trans (Nat.mul_one m).symm), transpose_one_column h]

/-- R175 (e). -/
theorem ilv_eq_dilv {m l : Nat} {x : Bits} (hm : 1 ≤ m) (hl : 1 ≤ l) (h : x.length = m * l) :
    ilv x m = dilv x l := by
  rw [ilv_eq_transpose hm h, dilv_eq_transpose hl (h.trans (Nat.mul_comm m l))]

/-- Settles O35, clause by clause. -/
theorem interleaverIsALosslessPermutation : Obligations.InterleaverIsALosslessPermutation := fun _ _ x _ hm hx hy =>
  ⟨dilv_ilv hm hx, ilv_dilv hm hx, ilv_xorBits hm hx hy, onesOf_ilv hm hx, onesOf_dilv hm hx, ilv_one x, dilv_one x,
    fun hl => ⟨ilv_length (Nat.mul_pos hm hl) hx, ilv_eq_dilv hm hl hx⟩⟩

/-! ## The commands (R173, R174) -/

theorem exec_ilv (aux : BitVec 8) (p : Bits) (s : State) : exec (.ilv aux p) s = execIlv aux p s := rfl

theorem exec_dilv (aux : BitVec 8) (p : Bits) (s : State) : exec (.dilv aux p) s = execDilv aux p s := rfl

/-- The two interleaver commands make the same checks. -/
theorem exec_ilvCommand {aux : BitVec 8} {p : Bits} {i : Instr} (h : i ∈ [Instr.ilv aux p, .dilv aux p]) (s : State) :
    ∃ d, exec i s = runCommand (ilvChecks aux p s) d s := by
  simp only [List.mem_cons, List.not_mem_nil, or_false] at h
  rcases h with rfl | rfl
  · exact ⟨_, exec_ilv aux p s⟩
  · exact ⟨_, exec_dilv aux p s⟩

/-- R173: the check on `M` and the length. -/
theorem ilvShape_iff (aux : BitVec 8) (n : Nat) :
    (decide (aux ≠ 0) && decide (n % aux.toNat = 0)) = true ↔ aux.toNat ≠ 0 ∧ n % aux.toNat = 0 := by
  rw [Bool.and_eq_true, decide_eq_true_iff, decide_eq_true_iff, Ne, BitVec.toNat_eq]
  rfl

/-- An interleaver command whose two checks hold answers `OK` with as many bits as it was given. -/
theorem runCommand_ilvChecks {aux : BitVec 8} {p data : Bits} {s : State} (hQuiet : quiescent s = true)
    (hShape : aux.toNat ≠ 0 ∧ p.length % aux.toNat = 0) (hFits : data.length < 2 ^ 24) :
    runCommand (ilvChecks aux p s) (respond .ok false data s) s = .next (answered s 0 0 data) := by
  rw [ilvChecks, runCommand_of_holding hQuiet, runCommand_of_holding ((ilvShape_iff aux _).mpr hShape), runCommand_nil,
    respond_eq_answered _ _ _ _ hFits]
  rfl

/-- Settles O13: the wire forms, the two refusals in their order, and the permuted payload. -/
theorem interleaverCommandsAnswer : Obligations.InterleaverCommandsAnswer := by
  intro aux p s hFits
  refine ⟨decode_cmdWire_of_commandOf (by omega) hFits rfl, decode_cmdWire_of_commandOf (by omega) hFits rfl,
    ?busy, ?refused, ?done⟩
  case busy =>
    intro hBusy i hi
    obtain ⟨d, hExec⟩ := exec_ilvCommand hi s
    rw [hExec, ilvChecks, runCommand_of_failing hBusy]
    rfl
  case refused =>
    intro hQuiet hBad i hi
    obtain ⟨d, hExec⟩ := exec_ilvCommand hi s
    have hFails : ¬ (aux.toNat ≠ 0 ∧ p.length % aux.toNat = 0) := fun ⟨hM, hLen⟩ => hBad.elim hM (· hLen)
    rw [hExec, ilvChecks, runCommand_of_holding hQuiet,
      runCommand_of_failing (Bool.eq_false_iff.mpr (mt (ilvShape_iff aux _).mp hFails))]
    rfl
  case done =>
    intro hQuiet hM hLen
    have hm : 1 ≤ aux.toNat := Nat.pos_of_ne_zero hM
    have hRows : p.length = aux.toNat * (p.length / aux.toNat) :=
      (Nat.mul_div_cancel' (Nat.dvd_of_mod_eq_zero hLen)).symm
    rw [exec_ilv, exec_dilv]
    refine ⟨runCommand_ilvChecks hQuiet ⟨hM, hLen⟩ ?_, runCommand_ilvChecks hQuiet ⟨hM, hLen⟩ ?_⟩
    · rw [length_ilv hm hRows, ← hRows]
      omega
    · rw [length_dilv hm hRows, ← hRows]
      omega

end Sys2Proof.Machine
end

section
/-! The combiner (44_combiner.md): one cell and the whole buffer over several receptions, under OR (O36) and under MAJ
(O37), and the answers of the three combiner commands (O14, O15, O16). -/

namespace Sys2Proof.Machine

/-! ## One lane (R202) -/

theorem combineCell_maj (a : AccCell) (b : Bool) : combineCell 1 a b = combineMaj a b := rfl

/-- Into a cell at 0 a bit combines to itself under both rules. -/
theorem combineCell_zero_snd {rule : BitVec 2} (hRule : rule = 0 ∨ rule = 1) (b : Bool) :
    (combineCell rule 0 b).2 = b := by
  rcases hRule with rfl | rfl
  · cases b <;> decide
  · cases b <;> decide

/-- Rule OR on a cell that holds the bit `a`. -/
theorem combineCell_or_bit : ∀ a b : Bool,
    combineCell 0 (if a then 1 else 0) b = (if a || b then 1 else 0, a || b) := by decide

/-- Rule MAJ counts a bit as +1 or -1 where the sum does not saturate. -/
theorem toInt_combineCell_maj {a : AccCell} {b : Bool} (hLow : -127 ≤ a.toInt + if b then 1 else -1)
    (hHigh : a.toInt + (if b then 1 else -1) ≤ 127) :
    (combineCell 1 a b).1.toInt = a.toInt + if b then 1 else -1 := by
  rw [combineCell_maj, combineMaj, sat8, min_eq_right hHigh, max_eq_right hLow,
    BitVec.toInt_ofInt_eq_self (by decide) (by omega) (by omega)]

/-- Under MAJ the combined bit is the sign of the new cell, and at 0 the new bit. -/
theorem combineCell_maj_snd (a : AccCell) (b : Bool) :
    (combineCell 1 a b).2 =
      if 0 < (combineCell 1 a b).1.toInt then true else if (combineCell 1 a b).1.toInt < 0 then false else b := rfl

/-! ## The combined word, and the cells over several receptions (R202) -/

theorem length_combine_snd (rule : BitVec 2) (w : Nat) (acc : List AccCell) (d : Bits) :
    (combine rule w acc d).2.length = w := by
  simp [combine]

/-- Bit `i` of the combined word. -/
theorem getD_combine_snd (rule : BitVec 2) (acc : List AccCell) (d : Bits) {w i : Nat} (hi : i < w) :
    (combine rule w acc d).2.getD i false = (combineCell rule (acc.getD i 0) (d.getD i false)).2 := by
  simp [combine, List.getD_eq_getElem?_getD, hi]

/-- Cell `i` after one reception more. -/
theorem getD_cellsAfter_append (rule : BitVec 2) (acc : List AccCell) (ds : List Bits) (d : Bits) {w i : Nat}
    (hi : i < w) :
    (cellsAfter rule w acc (ds ++ [d])).getD i 0 =
      (combineCell rule ((cellsAfter rule w acc ds).getD i 0) (d.getD i false)).1 := by
  rw [cellsAfter, List.foldl_append, List.foldl_cons, List.foldl_nil, ← cellsAfter, getD_combine _ _ _ hi]

theorem getD_clearedCells (i : Nat) : (List.replicate 87 (0 : AccCell)).getD i 0 = 0 :=
  getD_induction (P := fun a => a = 0) rfl (fun _ => List.eq_of_mem_replicate) i

/-- R208: the first reception after a clear is the combined word. -/
theorem combine_empty_snd {rule : BitVec 2} (hRule : rule = 0 ∨ rule = 1) (d : Bits) :
    (combine rule d.length (List.replicate 87 0) d).2 = d := by
  refine List.ext_getElem (length_combine_snd _ _ _ _) fun i hCombined hi => ?_
  rw [← List.getD_eq_getElem _ false hCombined, getD_combine_snd _ _ _ hi, getD_clearedCells,
    combineCell_zero_snd hRule, List.getD_eq_getElem _ _ hi]

/-- R208: under OR cell `i` says whether some reception since the clear had bit `i`. -/
theorem getD_cellsAfter_or (ds : List Bits) {w i : Nat} (hi : i < w) :
    (cellsAfter 0 w (List.replicate 87 0) ds).getD i 0 = if ds.any fun x => x.getD i false then 1 else 0 := by
  induction ds using List.reverseRecOn with
  | nil => exact getD_clearedCells i
  | append_singleton ds d ih =>
    rw [getD_cellsAfter_append _ _ _ _ hi, ih, combineCell_or_bit, List.any_append, List.any_cons, List.any_nil,
      Bool.or_false]

/-- Settles O36: the empty buffer by R208, and OR from what its cells hold. -/
theorem orCombiningKeepsEveryOne : Obligations.OrCombiningKeepsEveryOne := by
  refine ⟨fun rule d hRule => combine_empty_snd hRule d, fun w ds d i hi => ?_⟩
  rw [getD_combine_snd _ _ _ hi, getD_cellsAfter_or ds hi, combineCell_or_bit, List.any_append, List.any_cons,
    List.any_nil, Bool.or_false]

/-- R206: under MAJ cell `i` is ones minus zeros, for as many receptions as 8 bits can count. -/
theorem toInt_getD_cellsAfter_maj {ds : List Bits} (hCount : ds.length ≤ 127) {w i : Nat} (hi : i < w) :
    ((cellsAfter 1 w (List.replicate 87 0) ds).getD i 0).toInt =
      2 * (ds.countP fun x => x.getD i false : Nat) - (ds.length : Int) := by
  induction ds using List.reverseRecOn with
  | nil => rw [cellsAfter, List.foldl_nil, getD_clearedCells]; rfl
  | append_singleton ds d ih =>
    rw [List.length_append, List.length_singleton] at hCount
    have hCell := ih (by omega)
    have hOnes : (ds.countP fun x => x.getD i false) ≤ ds.length := List.countP_le_length
    rw [getD_cellsAfter_append _ _ _ _ hi, List.countP_append, List.countP_singleton, List.length_append,
      List.length_singleton]
    rw [toInt_combineCell_maj (by split <;> omega) (by split <;> omega), hCell]
    split <;> omega

/-- Settles O37: the sign of ones minus zeros is the majority. -/
theorem majCombiningTakesTheMajority : Obligations.MajCombiningTakesTheMajority := by
  intro w ds d hCount i hi
  have hCell := toInt_getD_cellsAfter_maj (ds := ds ++ [d]) (by simpa using hCount) hi
  rw [List.length_append, List.length_singleton] at hCell
  refine ⟨hCell, ?_⟩
  rw [getD_combine_snd _ _ _ hi, combineCell_maj_snd, ← getD_cellsAfter_append _ _ _ _ hi, hCell]
  exact if_congr (by omega) rfl (if_congr (by omega) rfl rfl)

/-! ## The commands (R204, R205, R207) -/

theorem exec_cbCombine (aux : BitVec 8) (p : Bits) (s : State) :
    exec (.cbCombine aux p) s = execCbCombine aux p s := rfl

theorem exec_cbClear (aux : BitVec 8) (p : Bits) (s : State) : exec (.cbClear aux p) s = execCbClear aux p s := rfl

theorem exec_cbRead (aux : BitVec 8) (p : Bits) (s : State) : exec (.cbRead aux p) s = execCbRead aux p s := rfl

/-- R103: the first check of a command, which fails exactly on `P`, and what the others make of it when it holds. -/
theorem runCommand_cons_eq_ite {c : Bool} {P : Prop} [Decidable P] (hFails : c = false ↔ P) {st : Cond}
    {cs : List (Bool × Cond)} {d s t : State} (hRest : c = true → runCommand cs d s = .next t) :
    runCommand ((c, st) :: cs) d s = .next (if P then answered s (condCode st).toNat 0 [] else t) := by
  by_cases hP : P
  · rw [if_pos hP, runCommand_of_failing (hFails.mpr hP)]
  · have hHolds : c = true := Bool.eq_true_of_not_eq_false (mt hFails.mp hP)
    rw [if_neg hP, runCommand_of_holding hHolds, hRest hHolds]

/-- R28: the configuration check of `CB_COMBINE` fails on an illegal generator or rule. -/
theorem genOk_and_ruleOk_eq_false_iff (c : Cfg) :
    (genOk c && ruleOk c) = false ↔ genOk c = false ∨ 1 < c.combRule.toNat := by
  rw [Bool.and_eq_false_iff, ruleOk, decide_eq_false_iff_not, Nat.not_le]

theorem isEmpty_eq_false_iff_length_ne_zero (p : Bits) : p.isEmpty = false ↔ p.length ≠ 0 :=
  List.isEmpty_eq_false_iff.trans (not_congr List.length_eq_zero_iff.symm)

/-- R36: a legal frame fits the buffer. -/
theorem frameW_le_cbCells {c : Cfg} (h : genOk c = true) : frameW c ≤ Config.cbCells := by
  have hBlock := blockN_le c.variant
  have hGen := length_genSeq_le h
  rw [frameW, degR, Config.cbCells]
  omega

/-- Settles O14: the wire form, the three refusals in their order, and the reception committed. -/
theorem cbCombineCommits : Obligations.CbCombineCommits := by
  intro aux p s hFits
  refine ⟨decode_cmdWire_of_commandOf (by omega) hFits rfl, ?_⟩
  rw [exec_cbCombine, execCbCombine]
  refine runCommand_cons_eq_ite Iff.rfl fun _ => runCommand_cons_eq_ite (genOk_and_ruleOk_eq_false_iff _) fun _ =>
    runCommand_cons_eq_ite decide_eq_false_iff_not fun hLength => ?_
  have hData : (combine s.cfg.combRule (frameW s.cfg) s.cb.acc p).2.length < 2 ^ 24 := by
    rw [length_combine_snd, ← of_decide_eq_true hLength]
    omega
  rw [runCommand_nil, combineAndRespond, respond_eq_answered _ _ _ _ hData, cbCommit_eq]
  rfl

/-- Settles O15: the wire form, the two refusals in their order, and the buffer cleared. -/
theorem cbClearEmpties : Obligations.CbClearEmpties := by
  intro aux p s hFits
  refine ⟨decode_cmdWire_of_commandOf (by omega) hFits rfl, ?_⟩
  rw [exec_cbClear, execCbClear]
  refine runCommand_cons_eq_ite Iff.rfl fun _ =>
    runCommand_cons_eq_ite (isEmpty_eq_false_iff_length_ne_zero p) fun _ => ?_
  rw [runCommand_nil, respond_eq_answered _ _ _ _ (by simp), cbClear_eq]
  rfl

/-- R9: two's complement, as the residue of a cell modulo 256. -/
theorem toInt_emod_toNat (a : AccCell) : (a.toInt % 256).toNat = a.toNat :=
  (BitVec.toNat_ofInt a.toInt).symm.trans (congrArg BitVec.toNat BitVec.ofInt_toInt)

/-- R207: the bits of the cells in use by the spec's formula. -/
theorem cbReadBits_eq (s : State) :
    cbReadBits s =
      (List.range (frameW s.cfg)).flatMap fun i => msbFirst 8 ((s.cb.acc.getD i 0).toInt % 256).toNat := by
  simp only [cbReadBits, toInt_emod_toNat, msbFirst_eq_wordBits]

theorem length_cbReadBits (s : State) : (cbReadBits s).length = 8 * frameW s.cfg := by
  simp [cbReadBits, List.length_flatMap, length_wordBits, Nat.mul_comm]

/-- Settles O16: the wire form, the three refusals in their order, and the cells in use. -/
theorem cbReadReturnsTheCells : Obligations.CbReadReturnsTheCells := by
  intro aux p s hFits
  refine ⟨decode_cmdWire_of_commandOf (by omega) hFits rfl, ?_⟩
  rw [exec_cbRead, execCbRead]
  refine runCommand_cons_eq_ite Iff.rfl fun _ => runCommand_cons_eq_ite Iff.rfl fun hGen =>
    runCommand_cons_eq_ite (isEmpty_eq_false_iff_length_ne_zero p) fun _ => ?_
  have hData : (cbReadBits s).length < 2 ^ 24 := by
    have hCells : frameW s.cfg ≤ 87 := frameW_le_cbCells hGen
    rw [length_cbReadBits]
    omega
  rw [runCommand_nil, respond_eq_answered _ _ _ _ hData, cbReadBits_eq]
  rfl

end Sys2Proof.Machine
end

section
/-! The sender (45_sender.md): a packet latched (O17), sent (O18), answered (O19, O20) and timed out (O21), its outcome
reported (O22), and what comes of transmissions that nothing answers: of one (O51) and of `MAX_ATT` (O52). -/

namespace Sys2Proof.Machine

/-! ## The packet (R222) -/

theorem exec_pktPush (aux : BitVec 8) (p : Bits) (s : State) : exec (.pktPush aux p) s = execPktPush aux p s := rfl

/-- R222: the first check of `PKT_PUSH` fails without a session or while a packet is at work. -/
theorem run_and_idle_eq_false_iff (s : State) :
    (s.run && decide (s.tx.state = .idle)) = false ↔ s.run = false ∨ s.tx.state ≠ .idle := by
  rw [Bool.and_eq_false_iff, decide_eq_false_iff_not]

/-- Settles O17: the wire form, the three refusals in their order, and the packet latched. -/
theorem pktPushLatchesThePacket : Obligations.PktPushLatchesThePacket := by
  intro aux p s hFits
  refine ⟨decode_cmdWire_of_commandOf (by omega) hFits rfl, ?_⟩
  rw [exec_pktPush, execPktPush]
  refine runCommand_cons_eq_ite (run_and_idle_eq_false_iff s) fun _ =>
    runCommand_cons_eq_ite (Bool.not_eq_false' _).to_iff fun _ =>
      runCommand_cons_eq_ite decide_eq_false_iff_not fun _ => ?_
  rw [runCommand_nil, respond_eq_answered _ _ _ _ (by simp)]
  rfl

/-! ## Values counted modulo a power of two -/

/-- The sums of R224, R226 and R229 as the spec writes them. -/
theorem add_eq_ofNat_mod {w : Nat} (x y : BitVec w) : x + y = BitVec.ofNat w ((x.toNat + y.toNat) % 2 ^ w) := by
  apply BitVec.eq_of_toNat_eq
  rw [BitVec.toNat_add, BitVec.toNat_ofNat, Nat.mod_mod]

/-- One more on a count. -/
theorem add_ofNat_add_one {w : Nat} (x : BitVec w) (k : Nat) :
    x + BitVec.ofNat w k + 1 = x + BitVec.ofNat w (k + 1) := by
  rw [BitVec.add_assoc, BitVec.ofNat_add]
  rfl

/-! ## A frame sent (R224) -/

/-- R221, R176: with one codeword in a batch the frame is the block and its check sequence. -/
theorem txFrame_eq (c : Cfg) (p : Bits) : txFrame c p = hamEnc c.variant p ++ crcRem p (genSeq c) :=
  ilv_one (cwBuild c p)

/-- R221, R224: the frame of the packet at work. -/
def packetFrame (s : State) : Frame :=
  { head := frmHead s.tx.seq (BitVec.ofNat 8 (frameW s.cfg)), bits := txFrame s.cfg s.tx.pay }

theorem sendFrame_out_frmOut (s : State) : (sendFrame s).out.frmOut = s.out.frmOut ++ [packetFrame s] := rfl

theorem exec_txSend_of_ready {s : State} (h : s.tx.state = .encoding ∨ s.tx.state = .retrying) :
    exec .txSend s = .next (sendFrame s) := by
  rw [exec_txSend, guarded, if_pos ((txSendReady_iff s).2 h)]

/-- Settles O18: the effect of `TX_SEND`, its frame and its sums in the words of the spec. -/
theorem txSendEmitsTheFrame : Obligations.TxSendEmitsTheFrame := by
  intro s hReady
  have hRetx : (if s.tx.state = .retrying then s.txCnt.retx + 1 else s.txCnt.retx) =
      s.txCnt.retx + if s.tx.state = .retrying then 1 else 0 := by
    split
    · rfl
    · exact (BitVec.add_zero _).symm
  rw [exec_txSend_of_ready hReady, sendFrame, txFrame_eq, hRetx, add_eq_ofNat_mod]
  rfl

/-! ## The answer (R225, R228) -/

/-- R95: the value of a control word is read back as the event of its kind. -/
theorem decode_ctlValue (kind : Bool) (seq : SeqNum) :
    decode .ctlIn (wordBits 17 (kind.toNat * 0x10000 + seq.toNat)) =
      .ok (if kind then .ctlAck seq else .ctlNack seq, []) := by
  rw [← ctlWord_toNat, ← List.append_nil (wordBits 17 _), decode_ctlWord]

theorem ctlStale_eq (s : State) :
    ctlStale s = { s with txCnt := { s.txCnt with stale := s.txCnt.stale + 1 } } := rfl

theorem exec_ctlAck_of_waiting {s : State} (h : s.tx.state = .awaitingAck) (seq : SeqNum) :
    exec (.ctlAck seq) s = .next (if seq = s.tx.seq then takeAck s else ctlStale s) :=
  congrArg _ (if_pos ((ctlReadyToTake_iff s).2 h))

theorem exec_ctlNack_of_waiting {s : State} (h : s.tx.state = .awaitingAck) (seq : SeqNum) :
    exec (.ctlNack seq) s = .next (if seq = s.tx.seq then txFail s else ctlStale s) :=
  congrArg _ (if_pos ((ctlReadyToTake_iff s).2 h))

/-- Settles O19: the word by R95, and the two tags. -/
theorem ctlAckAcknowledges : Obligations.CtlAckAcknowledges := by
  intro seq s
  refine ⟨decode_ctlValue true seq, fun hWait => ?_⟩
  rw [exec_ctlAck_of_waiting hWait, ite_not]
  rfl

/-- Settles O20: the word by R95, and the two tags. -/
theorem ctlNackFailsTheTransmission : Obligations.CtlNackFailsTheTransmission := by
  intro seq s
  refine ⟨?_, fun hWait => ?_⟩
  · have hWord := decode_ctlValue false seq
    rwa [Bool.toNat_false, Nat.zero_mul, Nat.zero_add] at hWord
  · rw [exec_ctlNack_of_waiting hWait, ite_not, txFail_eq, ctlStale_eq]

/-! ## The clock (R226) -/

/-- The state at another `TIME`. -/
def withTime (x : Count) (s : State) : State := { s with tx := { s.tx with time := x } }

theorem tickExpires_iff (s : State) :
    tickExpires s = true ↔ s.tx.state = .awaitingAck ∧ s.tx.time + 1 = s.tx.deadline := by
  rw [tickExpires, Bool.and_eq_true, decide_eq_true_eq, decide_eq_true_eq]

/-- R226: a `TICK` fails the transmission at its deadline, and else only counts. -/
theorem exec_tick (s : State) :
    exec .tick s = .next (
      if s.tx.state = .awaitingAck ∧ s.tx.time + 1 = s.tx.deadline then txFail (withDeadlineExpired s)
      else withTime (s.tx.time + 1) s) :=
  (execTick_eq s).trans (congrArg _ (if_congr (tickExpires_iff s) rfl rfl))

/-- Settles O21: the strobe, and `TIME` modulo `2^32`. -/
theorem tickAdvancesTimeAndExpires : Obligations.TickAdvancesTimeAndExpires := by
  refine ⟨fun rest => rfl, fun s => ?_⟩
  have hTime : BitVec.ofNat 32 ((s.tx.time.toNat + 1) % 2 ^ 32) = s.tx.time + 1 :=
    (add_eq_ofNat_mod s.tx.time 1).symm
  rw [exec_tick, txFail_eq, hTime]
  rfl

/-! ## The next packet (R229) -/

theorem exec_txAdvance_of_ready {s : State} (h : s.tx.state = .acked ∨ s.tx.state = .exhausted) :
    exec .txAdvance s = .next (advance s) := by
  rw [exec_txAdvance, guarded, if_pos ((txAdvanceReady_iff s).2 h)]

/-- R97, R229: the outcome word by its fields' places. -/
theorem outcomeWord_eq (s : State) :
    outcomeWord s =
      if s.tx.state = .acked then txoValue 0 s.tx.attempts.toNat s.tx.seq.toNat
      else txoValue 5 (s.tx.attempts - 1).toNat s.tx.seq.toNat := by
  rw [outcomeWord, txoWord_eq, txoWord_eq]
  rfl

/-- R229: `SEQ_OVF` is set by the last sequence number and stays set. -/
theorem seqOvf_or_last (ovf : Bool) (seq : SeqNum) :
    (ovf || decide (seq = 0xFFFF)) = if seq.toNat = 65535 then true else ovf := by
  have hLast : seq = 0xFFFF ↔ seq.toNat = 65535 := BitVec.toNat_inj.symm
  rw [decide_eq_decide.2 hLast]
  split
  · next h => rw [decide_eq_true h, Bool.or_true]
  · next h => rw [decide_eq_false h, Bool.or_false]

/-- Settles O22: the effect of `TX_ADVANCE`, its word and the wrap in the words of the spec. -/
theorem txAdvanceReportsTheOutcome : Obligations.TxAdvanceReportsTheOutcome := by
  intro s hReady
  rw [exec_txAdvance_of_ready hReady, advance, outcomeWord_eq, seqOvf_or_last, add_eq_ofNat_mod]
  rfl

/-! ## A failed transmission, element by element (R227) -/

theorem txFail_tx (s : State) :
    (txFail s).tx =
      { s.tx with
        outstanding := false
        attempts := s.tx.attempts + 1
        state := if s.tx.attempts + 1 < s.cfg.maxAtt then .retrying else .exhausted } := by
  rcases txFail_cases s with ⟨hLeft, hFail⟩ | ⟨hNone, hFail⟩
  · rw [hFail, if_pos hLeft]
  · rw [hFail, if_neg hNone]

theorem txFail_txCnt_eq (s : State) :
    (txFail s).txCnt =
      { s.txCnt with
        exhausted := if s.tx.attempts + 1 < s.cfg.maxAtt then s.txCnt.exhausted else s.txCnt.exhausted + 1 } := by
  rcases txFail_cases s with ⟨hLeft, hFail⟩ | ⟨hNone, hFail⟩
  · rw [hFail, if_pos hLeft]
  · rw [hFail, if_neg hNone]

theorem txFail_out (s : State) : (txFail s).out = s.out := by
  obtain ⟨_, _, _, _, _, _, _, hOut⟩ := txFail_frame s
  exact hOut

/-! ## Waiting for an answer that does not come (R226, R230 (a)) -/

theorem after_of_exec {i : Instr} {s t : State} (h : exec i s = .next t) : after i s = t := by
  rw [after, h]

theorem afterTicks_succ (n : Nat) (s : State) : afterTicks (n + 1) s = after .tick (afterTicks n s) := by
  induction n generalizing s with
  | zero => rfl
  | succ n ih => exact ih (after .tick s)

/-- While a transmission waits and fewer ticks have come than lie before its deadline, only `TIME` has changed. Modulo
`2^32` no earlier tick meets the deadline. -/
theorem afterTicks_before_deadline {s : State} {d : Nat} (hFits : d < 2 ^ 32)
    (hDeadline : s.tx.deadline = s.tx.time + BitVec.ofNat 32 d) {k : Nat} (hk : k < d) :
    afterTicks k s = withTime (s.tx.time + BitVec.ofNat 32 k) s := by
  induction k with
  | zero => rw [afterTicks, withTime, BitVec.add_zero]
  | succ k ih =>
    have hEarly : s.tx.time + BitVec.ofNat 32 (k + 1) ≠ s.tx.deadline := by
      rw [hDeadline, Ne, BitVec.add_right_inj]
      bv_omega
    rw [afterTicks_succ, ih (by omega), after_of_exec (exec_tick _), ← add_ofNat_add_one]
    exact if_neg fun ⟨_, hMet⟩ => hEarly ((add_ofNat_add_one _ _).symm.trans hMet)

/-- The state in which a transmission fails at its deadline: `TIME` has reached it and the timeout is counted. -/
def atDeadline (s : State) : State :=
  { s with
    tx := { s.tx with time := s.tx.deadline }
    txCnt := { s.txCnt with timeout := s.txCnt.timeout + 1 } }

/-- The tick at the deadline fails a transmission that has waited since `d` ticks before. -/
theorem afterTicks_deadline {s : State} {d : Nat} (hPos : 1 ≤ d) (hFits : d < 2 ^ 32)
    (hDeadline : s.tx.deadline = s.tx.time + BitVec.ofNat 32 d) (hWait : s.tx.state = .awaitingAck) :
    afterTicks d s = txFail (atDeadline s) := by
  obtain ⟨k, rfl⟩ : ∃ k, d = k + 1 := ⟨d - 1, by omega⟩
  have hLast : s.tx.time + BitVec.ofNat 32 k + 1 = s.tx.deadline :=
    (add_ofNat_add_one _ _).trans hDeadline.symm
  have hExpired : withDeadlineExpired (withTime (s.tx.time + BitVec.ofNat 32 k) s) = atDeadline s := by
    rw [atDeadline, ← hLast]
    rfl
  rw [afterTicks_succ, afterTicks_before_deadline hFits hDeadline (Nat.lt_succ_self k), after_of_exec (exec_tick _),
    hExpired]
  exact if_pos ⟨hWait, hLast⟩

/-- R224: the deadline of a frame sent lies `TIMEOUT` ticks ahead. -/
theorem sendFrame_deadline (s : State) :
    (sendFrame s).tx.deadline = (sendFrame s).tx.time + BitVec.ofNat 32 s.cfg.timeout.toNat := by
  rw [BitVec.ofNat_toNat, BitVec.setWidth_eq]
  rfl

/-- R224, R226: a frame sent and the `TIMEOUT` ticks after it. -/
theorem afterTicks_timeout_after_txSend {s : State} (hReady : s.tx.state = .encoding ∨ s.tx.state = .retrying)
    (hTimeout : 1 ≤ s.cfg.timeout.toNat) :
    afterTicks s.cfg.timeout.toNat (after .txSend s) = txFail (atDeadline (sendFrame s)) := by
  rw [after_of_exec (exec_txSend_of_ready hReady)]
  exact afterTicks_deadline hTimeout s.cfg.timeout.isLt (sendFrame_deadline s) rfl

/-- Settles O51: before the deadline only `TIME` changes, and the tick at it fails the transmission. -/
theorem deadlineStrikesAtTheTimeoutthTick : Obligations.DeadlineStrikesAtTheTimeoutthTick := by
  intro s hReady hTimeout t
  refine ⟨fun k hk => ?_, ?_⟩
  · have hBefore : afterTicks k t = withTime (s.tx.time + BitVec.ofNat 32 k) (sendFrame s) := by
      rw [show t = sendFrame s from after_of_exec (exec_txSend_of_ready hReady)]
      exact afterTicks_before_deadline s.cfg.timeout.isLt (sendFrame_deadline s) hk
    rw [hBefore]
    exact ⟨rfl, rfl, rfl⟩
  · rw [afterTicks_timeout_after_txSend hReady hTimeout]
    refine ⟨?_, by rw [txFail_tx]; rfl, by rw [txFail_txCnt_eq]; rfl⟩
    rcases txFail_state (atDeadline (sendFrame s)) with hRetrying | hExhausted
    · rw [hRetrying]
      exact nofun
    · rw [hExhausted]
      exact nofun

/-! ## Every transmission lost (R227, R230 (d)) -/

theorem afterLostTransmissions_succ (k : Nat) (s : State) :
    afterLostTransmissions (k + 1) s =
      afterTicks (afterLostTransmissions k s).cfg.timeout.toNat (after .txSend (afterLostTransmissions k s)) := by
  induction k generalizing s with
  | zero => rfl
  | succ k ih => exact ih _

/-- What `k` lost transmissions of a fresh packet have made of `s`: the packet and its tag stand, the frame has gone out
`k` times, all but the first as a retransmission, and the sender retries while an attempt is left. -/
structure LostSince (k : Nat) (s t : State) : Prop where
  cfg : t.cfg = s.cfg
  pay : t.tx.pay = s.tx.pay
  seq : t.tx.seq = s.tx.seq
  state : t.tx.state = if k = 0 then .encoding else if k < s.cfg.maxAtt.toNat then .retrying else .exhausted
  attempts : t.tx.attempts = BitVec.ofNat 8 k
  frmOut : t.out.frmOut = s.out.frmOut ++ List.replicate k (packetFrame s)
  txOut : t.out.txOut = s.out.txOut
  frames : t.txCnt.frames = s.txCnt.frames + BitVec.ofNat 32 k
  retx : t.txCnt.retx = s.txCnt.retx + BitVec.ofNat 32 (k - 1)
  time : t.tx.time = s.tx.time + BitVec.ofNat 32 (k * s.cfg.timeout.toNat)

/-- A fresh packet has lost nothing yet. -/
theorem lostSince_zero {s : State} (hEnc : s.tx.state = .encoding) (hFresh : s.tx.attempts = 0) :
    LostSince 0 s s where
  cfg := rfl
  pay := rfl
  seq := rfl
  state := hEnc
  attempts := hFresh
  frmOut := (List.append_nil _).symm
  txOut := rfl
  frames := (BitVec.add_zero _).symm
  retx := (BitVec.add_zero _).symm
  time := by rw [Nat.zero_mul]; exact (BitVec.add_zero _).symm

/-- Before each of the `MAX_ATT` transmissions the sender is ready: for the first in `Encoding`, then in `Retrying`. -/
theorem LostSince.ready {k : Nat} {s t : State} (h : LostSince k s t) (hLeft : k < s.cfg.maxAtt.toNat) :
    t.tx.state = .encoding ∨ t.tx.state = .retrying := by
  rw [h.state, if_pos hLeft]
  split
  · exact .inl rfl
  · exact .inr rfl

/-- One transmission more: the frame of the same packet, and the failure at its deadline. -/
theorem LostSince.succ {k : Nat} {s t : State} (h : LostSince k s t) (hLeft : k < s.cfg.maxAtt.toNat)
    (hTimeout : 1 ≤ s.cfg.timeout.toNat) :
    LostSince (k + 1) s (afterTicks t.cfg.timeout.toNat (after .txSend t)) := by
  have hMax := s.cfg.maxAtt.isLt
  have hAttempts : t.tx.attempts + 1 = BitVec.ofNat 8 (k + 1) := by rw [h.attempts, BitVec.ofNat_add]; rfl
  rw [afterTicks_timeout_after_txSend (h.ready hLeft) (h.cfg ▸ hTimeout)]
  refine
    { cfg := (txFail_cfg _).trans h.cfg
      pay := ?pay, seq := ?seq, state := ?state, attempts := ?attempts, frmOut := ?frmOut, txOut := ?txOut,
      frames := ?frames, retx := ?retx, time := ?time }
  case pay => rw [txFail_tx]; exact h.pay
  case seq => rw [txFail_tx]; exact h.seq
  case attempts => rw [txFail_tx]; exact hAttempts
  case state =>
    have hIff : t.tx.attempts + 1 < t.cfg.maxAtt ↔ k + 1 < s.cfg.maxAtt.toNat := by
      rw [hAttempts, h.cfg, BitVec.lt_def, BitVec.toNat_ofNat, Nat.mod_eq_of_lt (by omega)]
    rw [txFail_tx, if_neg (Nat.succ_ne_zero k)]
    exact if_congr hIff rfl rfl
  case frmOut =>
    have hSent : (txFail (atDeadline (sendFrame t))).out.frmOut = t.out.frmOut ++ [packetFrame t] := by
      rw [txFail_out]
      exact sendFrame_out_frmOut t
    have hSame : packetFrame t = packetFrame s := by rw [packetFrame, h.cfg, h.seq, h.pay, ← packetFrame]
    rw [hSent, hSame, h.frmOut, List.append_assoc, List.replicate_succ']
  case txOut => rw [txFail_out]; exact h.txOut
  case frames =>
    have hCount : (txFail (atDeadline (sendFrame t))).txCnt.frames = t.txCnt.frames + 1 := by
      rw [txFail_txCnt_eq]
      rfl
    rw [hCount, h.frames, add_ofNat_add_one]
  case retx =>
    have hCount : (txFail (atDeadline (sendFrame t))).txCnt.retx =
        if t.tx.state = .retrying then t.txCnt.retx + 1 else t.txCnt.retx := by
      rw [txFail_txCnt_eq]
      rfl
    rw [hCount, h.state, h.retx, if_pos hLeft]
    cases k with
    | zero => rfl
    | succ j =>
      rw [if_neg (Nat.succ_ne_zero j), if_pos rfl, add_ofNat_add_one]
      rfl
  case time =>
    have hDeadline : (txFail (atDeadline (sendFrame t))).tx.time = t.tx.time + t.cfg.timeout := by
      rw [txFail_tx]
      rfl
    rw [hDeadline, h.time, h.cfg, Nat.succ_mul, BitVec.ofNat_add, BitVec.add_assoc, BitVec.ofNat_toNat,
      BitVec.setWidth_eq]

/-- The induction over the attempts of a packet. -/
theorem lostSince_afterLostTransmissions {s : State} (hEnc : s.tx.state = .encoding) (hFresh : s.tx.attempts = 0)
    (hTimeout : 1 ≤ s.cfg.timeout.toNat) {k : Nat} (hk : k ≤ s.cfg.maxAtt.toNat) :
    LostSince k s (afterLostTransmissions k s) := by
  induction k with
  | zero => exact lostSince_zero hEnc hFresh
  | succ k ih =>
    rw [afterLostTransmissions_succ]
    exact (ih (by omega)).succ hk hTimeout

/-- Settles O52: what `MAX_ATT` lost transmissions have made of the packet, and the word that reports it. -/
theorem lostTransmissionsEndExhausted : Obligations.LostTransmissionsEndExhausted := by
  intro s hEnc hFresh hTimeout hAttempt n f t
  have hLost : LostSince n s t := lostSince_afterLostTransmissions hEnc hFresh hTimeout le_rfl
  have hExhausted : t.tx.state = .exhausted := by
    rw [hLost.state, if_neg (by omega), if_neg (Nat.lt_irrefl n)]
  have hAttempts : t.tx.attempts = s.cfg.maxAtt := by
    rw [hLost.attempts, BitVec.ofNat_toNat, BitVec.setWidth_eq]
  have hRetx : (t.tx.attempts - 1).toNat = n - 1 := by
    rw [hAttempts]
    exact BitVec.toNat_sub_of_le (BitVec.le_def.2 hAttempt)
  have hAdvance : after .txAdvance t = advance t := after_of_exec (exec_txAdvance_of_ready (.inr hExhausted))
  have hWord : outcomeWord t = txoValue 5 (n - 1) s.tx.seq.toNat := by
    rw [outcomeWord_eq, hExhausted, if_neg nofun, hRetx, hLost.seq]
  refine ⟨fun k hFirst hLast => ?_, hExhausted, hAttempts, hLost.frmOut, hLost.frames, hLost.retx, hLost.time,
    ?_, ?_⟩
  · rw [(lostSince_afterLostTransmissions hEnc hFresh hTimeout hLast.le).state, if_neg (by omega), if_pos hLast]
  · rw [hAdvance, advance_out_txOut, hWord, hLost.txOut]
  · rw [hAdvance, advance_tx_state]

end Sys2Proof.Machine
end

section
/-! The receiver (46_receiver.md): a frame taken (O23) or lost (O24), processed (O25, O26) and answered (O27, O50), and
what becomes of a frame into an empty buffer: without an error (O53), with one in the block (O54), with one in the CRC part
(O55). -/

namespace Sys2Proof.Machine

/-! ## A frame taken or lost (R251, R252) -/

theorem exec_frmIn_of_waiting {s : State} (hRun : s.run = true) (hWait : s.rx.state = .waitingFrame) (seq : SeqNum)
    (flen : BitVec 8) (bits : Bits) : exec (.frmIn seq flen bits) s = .next (acceptFrame seq flen bits s) :=
  congrArg _ (if_pos ((frmReady_iff s).2 ⟨hRun, hWait⟩))

theorem exec_frmLost_of_waiting {s : State} (hRun : s.run = true) (hWait : s.rx.state = .waitingFrame) :
    exec .frmLost s = .next (loseFrame s) :=
  congrArg _ (if_pos ((frmReady_iff s).2 ⟨hRun, hWait⟩))

/-- R251: what an accepted frame writes; the buffer is cleared and retagged exactly under another tag. -/
theorem acceptFrame_eq (seq : SeqNum) (flen : BitVec 8) (bits : Bits) (s : State) :
    acceptFrame seq flen bits s =
      { s with
        rx := { s.rx with frm := bits, len := flen, seq := seq, state := .decoding }
        cb := if seq = s.cb.seq then s.cb else { acc := List.replicate 87 0, empty := true, seq := seq, cnt := 0 }
        rxCnt := { s.rxCnt with rxframes := s.rxCnt.rxframes + 1 } } := by
  rcases cbRetag_cases seq s with ⟨hSame, hRetag⟩ | ⟨hOther, hRetag⟩
  · rw [acceptFrame, hRetag, if_pos hSame]
  · rw [acceptFrame, hRetag, if_neg hOther]
    rfl

/-- Settles O23: the wire form by R96, and the effect of `FRM_IN`. -/
theorem frmInLatchesTheFrame : Obligations.FrmInLatchesTheFrame := by
  intro seq flen bits s hFits
  refine ⟨?_, fun hRun hWait => ?_⟩
  · rw [← List.append_nil (wordBits 24 _ ++ bits)]
    exact decodeFrm_head seq flen bits [] hFits
  · rw [exec_frmIn_of_waiting hRun hWait, acceptFrame_eq]

/-- Settles O24: the strobe, the code, and the effect of `FRM_LOST`. -/
theorem frmLostIsOnlyCounted : Obligations.FrmLostIsOnlyCounted :=
  ⟨fun _ => rfl, rfl, fun _ hRun hWait => exec_frmLost_of_waiting hRun hWait⟩

/-! ## The results of a frame (R255) -/

/-- R123: the check against the `r` bits of the configuration's generator. -/
theorem crcCheck_genSeq_iff (c : Cfg) (x : Bits) :
    crcCheck x (genSeq c) = true ↔ polymod x (genSeq c) = zeros (degR c) :=
  beq_iff_eq

/-- R143: a syndrome of 0 or of a position decodes, and corrects exactly when it is not 0. -/
theorem hamDec_of_syndrome_le {v : BitVec 1} {c : Bits} (h : syndrome v c ≤ blockN v) :
    hamDec v c =
      some (extractData v (if syndrome v c = 0 then c else flipBit c (syndrome v c - 1)), decide (syndrome v c ≠ 0)) := by
  rcases Nat.eq_zero_or_pos (syndrome v c) with hZero | hPos
  · rw [hamDec_of_syndrome_zero hZero, if_pos hZero, decide_eq_false (not_not_intro hZero)]
  · rw [hamDec_of_syndrome_position rfl hPos h, if_neg hPos.ne', decide_eq_true hPos.ne']

/-- R255: another length than `W` is reported first. -/
theorem rxProcess_of_length_ne {c : Cfg} {f : Bits} (h : f.length ≠ frameW c) (acc : List AccCell) :
    rxProcess c f acc = { code := .malformedFrame, cor := false, data := [], acc := acc } :=
  if_neg h

/-- R255: then a block of the combined word that does not decode. -/
theorem rxProcess_of_hamDec_none {c : Cfg} {f : Bits} {acc : List AccCell} (hLength : f.length = frameW c)
    (hDec : hamDec c.variant ((combine c.combRule (frameW c) acc f).2.take (blockN c.variant)) = none) :
    rxProcess c f acc = { code := .invalidSyndrome, cor := false, data := [], acc := acc } := by
  rw [rxProcess, if_pos hLength, Config.ilvMPipe, dilv_one]
  dsimp only
  rw [hDec]

/-- R255: and last the CRC of the corrected data. -/
theorem rxProcess_of_hamDec_some {c : Cfg} {f d : Bits} {acc : List AccCell} {cor : Bool}
    (hLength : f.length = frameW c)
    (hDec : hamDec c.variant ((combine c.combRule (frameW c) acc f).2.take (blockN c.variant)) = some (d, cor)) :
    rxProcess c f acc =
      if crcCheck (d ++ (combine c.combRule (frameW c) acc f).2.drop (blockN c.variant)) (genSeq c) = true then
        { code := .ok, cor := cor, data := d, acc := List.replicate (frameW c) 0 }
      else
        { code := .crcMismatch, cor := cor, data := [], acc := (combine c.combRule (frameW c) acc f).1 } := by
  rw [rxProcess, if_pos hLength, Config.ilvMPipe, dilv_one]
  dsimp only
  rw [hDec]

/-- Settles O26: the three tests in their order. -/
theorem rxProcessReportsTheFirstResult : Obligations.RxProcessReportsTheFirstResult := by
  intro c f acc n word sy d valid
  refine ⟨fun hLength => rxProcess_of_length_ne hLength acc,
    fun hLength hBeyond => rxProcess_of_hamDec_none hLength (hamDec_eq_none_iff.2 hBeyond),
    fun hLength hLe hValid => ?_, fun hLength hLe hInvalid => ?_⟩
  · rw [rxProcess_of_hamDec_some hLength (hamDec_of_syndrome_le hLe)]
    exact if_pos ((crcCheck_genSeq_iff c _).2 hValid)
  · rw [rxProcess_of_hamDec_some hLength (hamDec_of_syndrome_le hLe)]
    exact if_neg (mt (crcCheck_genSeq_iff c _).1 hInvalid)

/-! ## A result applied (R253, R256) -/

theorem exec_rxDecode_of_decoding {s : State} (h : s.rx.state = .decoding) : exec .rxDecode s = .next (decodeFrame s) := by
  rw [exec_rxDecode, guarded, if_pos ((rxDecodeReady_iff s).2 h)]

/-- R300, R320: what a result records, with its word by R98. -/
theorem rxRecord_eq (code : Cond) (cor : Bool) (data : Bits) (st : RxState) (s : State) :
    rxRecord code cor data st s =
      { s with
        rx := { s.rx with res := code, cor := cor, lastErr := code, state := st }
        rxCnt := { s.rxCnt with corrected := s.rxCnt.corrected + if cor then 1 else 0 }
        out :=
          { s.out with
            rxOut := s.out.rxOut ++ [rxoValue (condCode code).toNat cor.toNat s.rx.seq.toNat data] } } := by
  have hCorrected : (if cor then s.rxCnt.corrected + 1 else s.rxCnt.corrected) =
      s.rxCnt.corrected + if cor then 1 else 0 := by
    cases cor
    · exact (BitVec.add_zero _).symm
    · rfl
  rw [rxRecord, rxoWord_eq, hCorrected]
  rfl

theorem applyResult_of_ok {r : RxResult} (h : r.code = .ok) (s : State) :
    applyResult r s =
      rxRecord .ok r.cor r.data .validatedAck
        (withEmptyBuffer { s with rxCnt := { s.rxCnt with valid := s.rxCnt.valid + 1 } }) := by
  rw [applyResult, h]
  rfl

theorem applyResult_of_malformedFrame {r : RxResult} (h : r.code = .malformedFrame) (s : State) :
    applyResult r s =
      rxRecord .malformedFrame r.cor [] .invalidatedNack
        { s with rxCnt := { s.rxCnt with malformed := s.rxCnt.malformed + 1 } } := by
  rw [applyResult, h]
  rfl

theorem applyResult_of_invalidSyndrome {r : RxResult} (h : r.code = .invalidSyndrome) (s : State) :
    applyResult r s =
      rxRecord .invalidSyndrome r.cor [] .invalidatedNack
        { s with rxCnt := { s.rxCnt with synfail := s.rxCnt.synfail + 1 } } := by
  rw [applyResult, h]
  rfl

theorem applyResult_of_crcMismatch {r : RxResult} (h : r.code = .crcMismatch) (s : State) :
    applyResult r s =
      rxRecord .crcMismatch r.cor [] .invalidatedNack
        (withCommitted (frameW s.cfg) r.acc { s with rxCnt := { s.rxCnt with crcfail := s.rxCnt.crcfail + 1 } }) := by
  rw [applyResult, h]
  exact congrArg (rxRaise .crcMismatch r.cor) (cbCommit_eq r.acc _)

/-- Settles O25: the four results by their code; the two found before decoding never correct. -/
theorem rxDecodeAppliesTheResult : Obligations.RxDecodeAppliesTheResult := by
  intro s hDec r recorded corrected
  have hExec : exec .rxDecode s = .next (applyResult r s) := exec_rxDecode_of_decoding hDec
  rcases rxProcess_code s.cfg (s.rx.frm.take s.rx.len.toNat) s.cb.acc with hOk | ⟨hMal, hCor⟩ | ⟨hSyn, hCor⟩ | hCrc
  · refine .inl ⟨hOk, ?_⟩
    rw [hExec, applyResult_of_ok hOk, rxRecord_eq]
    rfl
  · refine .inr (.inl ⟨hMal, ?_⟩)
    rw [hExec, applyResult_of_malformedFrame hMal, rxRecord_eq, show r.cor.toNat = 0 from congrArg _ hCor]
    rfl
  · refine .inr (.inr (.inl ⟨hSyn, ?_⟩))
    rw [hExec, applyResult_of_invalidSyndrome hSyn, rxRecord_eq, show r.cor.toNat = 0 from congrArg _ hCor]
    rfl
  · refine .inr (.inr (.inr ⟨hCrc, ?_⟩))
    rw [hExec, applyResult_of_crcMismatch hCrc, rxRecord_eq]
    rfl

/-! ## The answer (R254) -/

theorem exec_rxRespond_of_answering {s : State} (h : s.rx.state = .validatedAck ∨ s.rx.state = .invalidatedNack) :
    exec .rxRespond s = .next (answerFrame s) := by
  rw [exec_rxRespond, guarded, if_pos ((rxRespondReady_iff s).2 h)]

/-- Settles O27: the word by R95, and the effect of `RX_RESPOND`. -/
theorem rxRespondAnswersTheFrame : Obligations.RxRespondAnswersTheFrame := by
  intro s hReady w
  have hKind : (decide (s.rx.state = .validatedAck)).toNat = if s.rx.state = .validatedAck then 1 else 0 :=
    apply_ite Bool.toNat (s.rx.state = .validatedAck) true false
  have hWord : ctlWord (decide (s.rx.state = .validatedAck)) s.rx.seq = w := by rw [ctlWord_eq, hKind]
  rw [exec_rxRespond_of_answering hReady, answerFrame, rxEmitControl, hWord]
  rfl

/-! ## One answer to each frame (R258 (a)) -/

/-- R32: the state that answers a result. -/
def answeringState (code : Cond) : RxState := if code = .ok then .validatedAck else .invalidatedNack

theorem answeringState_answers (code : Cond) :
    answeringState code = .validatedAck ∨ answeringState code = .invalidatedNack := by
  rw [answeringState]
  split
  · exact .inl rfl
  · exact .inr rfl

theorem answeringState_eq_validatedAck_iff (code : Cond) : answeringState code = .validatedAck ↔ condCode code = 0 := by
  cases code <;> decide

/-- R253: whatever the result, it is recorded once, over the frame's latches and the output so far. -/
theorem decodeFrame_eq_rxRecord (s : State) :
    ∃ (code : Cond) (cor : Bool) (data : Bits) (u : State),
      decodeFrame s = rxRecord code cor data (answeringState code) u ∧ u.rx = s.rx ∧ u.out = s.out := by
  rcases rxProcess_code s.cfg (s.rx.frm.take s.rx.len.toNat) s.cb.acc with hOk | ⟨hMal, _⟩ | ⟨hSyn, _⟩ | hCrc
  · exact ⟨.ok, _, _, _, applyResult_of_ok hOk s, rfl, rfl⟩
  · exact ⟨.malformedFrame, _, _, _, applyResult_of_malformedFrame hMal s, rfl, rfl⟩
  · exact ⟨.invalidSyndrome, _, _, _, applyResult_of_invalidSyndrome hSyn s, rfl, rfl⟩
  · exact ⟨.crcMismatch, _, _, _, applyResult_of_crcMismatch hCrc s, rfl, rfl⟩

/-- R98: a result word as a number. -/
theorem rxoWord_toNat (code : Cond) (cor : Bool) (seq : SeqNum) (data : Bits) :
    (rxoWord code cor seq data).word.toNat = (condCode code).toNat * 2 ^ 28 + cor.toNat * 2 ^ 24 + seq.toNat := by
  have hCode := (condCode code).isLt
  have hCor := Bool.toNat_lt cor
  have hSeq := seq.isLt
  rw [rxoWord_eq, rxoValue, BitVec.toNat_ofNat]
  omega

theorem rxoWord_code_eq_zero_iff (code : Cond) (cor : Bool) (seq : SeqNum) (data : Bits) :
    (rxoWord code cor seq data).word.toNat / 2 ^ 28 = 0 ↔ condCode code = 0 := by
  have hCor := Bool.toNat_lt cor
  have hSeq := seq.isLt
  rw [rxoWord_toNat, ← BitVec.toNat_inj, show (0 : BitVec 4).toNat = 0 from rfl]
  omega

theorem rxoWord_seq (code : Cond) (cor : Bool) (seq : SeqNum) (data : Bits) :
    (rxoWord code cor seq data).word.toNat % 2 ^ 16 = seq.toNat := by
  have hSeq := seq.isLt
  rw [rxoWord_toNat]
  omega

/-- R95: the two kinds of a control word differ. -/
theorem ctlWord_eq_ack_iff (kind : Bool) (seq : SeqNum) : ctlWord kind seq = ctlValue 1 seq.toNat ↔ kind = true := by
  have hSeq := seq.isLt
  rw [show ctlValue 1 seq.toNat = ctlWord true seq from (ctlWord_eq true seq).symm, ← BitVec.toNat_inj, ctlWord_toNat,
    ctlWord_toNat]
  cases kind
  · simp
  · simp

theorem ctlWord_eq_ack_or_nack (kind : Bool) (seq : SeqNum) :
    ctlWord kind seq = ctlValue 1 seq.toNat ∨ ctlWord kind seq = ctlValue 0 seq.toNat := by
  rw [ctlWord_eq]
  cases kind
  · exact .inr rfl
  · exact .inl rfl

/-- Settles O50: the frame latched, its result recorded, and the answer that its state gives. -/
theorem everyFrameIsAnsweredOnce : Obligations.EveryFrameIsAnsweredOnce := by
  intro s seq flen bits hRun hWait t
  have hLatched : after (.frmIn seq flen bits) s = acceptFrame seq flen bits s :=
    after_of_exec (exec_frmIn_of_waiting hRun hWait seq flen bits)
  obtain ⟨code, cor, data, u, hDecoded, hRx, hOut⟩ := decodeFrame_eq_rxRecord (acceptFrame seq flen bits s)
  have hRecorded : after .rxDecode (acceptFrame seq flen bits s) = rxRecord code cor data (answeringState code) u :=
    (after_of_exec (exec_rxDecode_of_decoding rfl)).trans hDecoded
  have hAnswered : t = answerFrame (rxRecord code cor data (answeringState code) u) := by
    rw [← after_of_exec (exec_rxRespond_of_answering (answeringState_answers code)), ← hRecorded, ← hLatched]
  have hSeq : u.rx.seq = seq := congrArg Rx.seq hRx
  have hSame : u.out = s.out := by rw [hOut, acceptFrame_eq]
  rw [hAnswered, answerFrame, rxRecord_rx_state]
  refine ⟨ctlWord (decide (answeringState code = .validatedAck)) seq, rxoWord code cor seq data, ?ctl, ?rxo,
    rxEmitControl_rx_state _ _, ctlWord_eq_ack_or_nack _ seq, ?kind, ?tag⟩
  case ctl => rw [rxEmitControl_out_ctlOut, rxRecord_out_ctlOut, rxRecord_rx_seq, hSeq, hSame]
  case rxo => rw [rxEmitControl_out_rxOut, rxRecord_out_rxOut, hSeq, hSame]
  case kind =>
    rw [ctlWord_eq_ack_iff, decide_eq_true_eq, answeringState_eq_validatedAck_iff, rxoWord_code_eq_zero_iff]
  case tag => exact rxoWord_seq _ _ seq _

/-! ## A frame into an empty buffer (R258 (b) to (d)) -/

theorem genOk_of_cfgOk {c : Cfg} (h : cfgOk c = true) : genOk c = true := by
  simp only [cfgOk, Bool.and_eq_true] at h
  obtain ⟨⟨⟨hGen, _⟩, _⟩, _⟩ := h
  exact hGen

/-- R27: the two combining rules there are. -/
theorem combRule_of_cfgOk {c : Cfg} (h : cfgOk c = true) : c.combRule = 0 ∨ c.combRule = 1 := by
  have hRule : c.combRule.toNat ≤ 1 := of_decide_eq_true (ruleOk_of_cfgOk h)
  bv_omega

/-- R208: into cells that are all 0 a reception is the combined word. -/
theorem combine_zero_cells_snd {rule : BitVec 2} {acc : List AccCell} {w : Nat} {d : Bits}
    (hRule : rule = 0 ∨ rule = 1) (hZero : ∀ a ∈ acc, a = 0) (hLength : d.length = w) :
    (combine rule w acc d).2 = d := by
  have hCleared : combine rule w acc d = combine rule w (List.replicate 87 0) d := by
    simp only [combine, getD_induction (P := fun a => a = 0) rfl hZero, getD_clearedCells]
  rw [hCleared, ← hLength, combine_empty_snd hRule]

/-- `RX_DECODE` is next on a frame of the right length, split into its block and its CRC part, with a legal configuration
and nothing in the buffer. -/
structure FreshFrame (s : State) (block check : Bits) : Prop where
  decoding : s.rx.state = .decoding
  legal : cfgOk s.cfg = true
  cells : ∀ a ∈ s.cb.acc, a = 0
  length_block : block.length = blockN s.cfg.variant
  length_check : check.length = degR s.cfg
  frm : s.rx.frm = block ++ check
  len : s.rx.len = BitVec.ofNat 8 (frameW s.cfg)

namespace FreshFrame

variable {s : State} {block check d : Bits} {cor : Bool}

theorem length_frame (h : FreshFrame s block check) : (block ++ check).length = frameW s.cfg := by
  rw [List.length_append, h.length_block, h.length_check, frameW]

/-- R5: `flen` holds every `W`, so the latched bits are the whole frame. -/
theorem latched (h : FreshFrame s block check) : s.rx.frm.take s.rx.len.toNat = block ++ check := by
  have hFits : frameW s.cfg ≤ 87 := frameW_le_cbCells (genOk_of_cfgOk h.legal)
  have hLen : s.rx.len.toNat = frameW s.cfg := by
    rw [h.len, BitVec.toNat_ofNat, Nat.mod_eq_of_lt (by omega)]
  rw [h.frm, List.take_of_length_le (by rw [h.length_frame, hLen])]

/-- R255: a frame whose block decodes is judged by its CRC part. -/
theorem rxProcess_eq (h : FreshFrame s block check) (hDec : hamDec s.cfg.variant block = some (d, cor)) :
    rxProcess s.cfg (s.rx.frm.take s.rx.len.toNat) s.cb.acc =
      if crcCheck (d ++ check) (genSeq s.cfg) = true then
        { code := .ok, cor := cor, data := d, acc := List.replicate (frameW s.cfg) 0 }
      else
        { code := .crcMismatch, cor := cor, data := [],
          acc := (combine s.cfg.combRule (frameW s.cfg) s.cb.acc (block ++ check)).1 } := by
  have hWord := combine_zero_cells_snd (combRule_of_cfgOk h.legal) h.cells h.length_frame
  have hBlock : (block ++ check).take (blockN s.cfg.variant) = block := List.take_left' h.length_block
  have hCheck : (block ++ check).drop (blockN s.cfg.variant) = check := List.drop_left' h.length_block
  rw [h.latched, rxProcess_of_hamDec_some h.length_frame (by rw [hWord, hBlock, hDec]), hWord, hCheck]

/-- R256: a frame that passes both checks validates. -/
theorem validates (h : FreshFrame s block check) (hDec : hamDec s.cfg.variant block = some (d, cor))
    (hCrc : crcCheck (d ++ check) (genSeq s.cfg) = true) :
    ∃ t, exec .rxDecode s = .next t ∧ t.rx.state = .validatedAck ∧ t.rx.res = .ok ∧ t.rx.cor = cor ∧
      t.cb.empty = true ∧ t.out.rxOut = s.out.rxOut ++ [rxoValue 0 cor.toNat s.rx.seq.toNat d] := by
  have hResult := h.rxProcess_eq hDec
  rw [if_pos hCrc] at hResult
  refine ⟨_, exec_rxDecode_of_decoding h.decoding, ?_⟩
  rw [decodeFrame, hResult, applyResult_of_ok rfl, rxRecord_eq]
  exact ⟨rfl, rfl, rfl, rfl, rfl⟩

/-- R256: a frame whose block decodes but whose CRC fails is answered `CrcMismatch` and kept. -/
theorem mismatches (h : FreshFrame s block check) (hDec : hamDec s.cfg.variant block = some (d, cor))
    (hCrc : crcCheck (d ++ check) (genSeq s.cfg) = false) :
    ∃ t, exec .rxDecode s = .next t ∧ t.rx.state = .invalidatedNack ∧ t.rx.res = .crcMismatch ∧ t.rx.cor = cor ∧
      t.cb.empty = false ∧ t.out.rxOut = s.out.rxOut ++ [rxoValue 3 cor.toNat s.rx.seq.toNat []] := by
  have hResult := h.rxProcess_eq hDec
  rw [if_neg (ne_true_of_eq_false hCrc)] at hResult
  refine ⟨_, exec_rxDecode_of_decoding h.decoding, ?_⟩
  rw [decodeFrame, hResult, applyResult_of_crcMismatch rfl, rxRecord_eq]
  exact ⟨rfl, rfl, rfl, rfl, rfl⟩

end FreshFrame

theorem flipBit_append_of_lt {a : Bits} {i : Nat} (h : i < a.length) (b : Bits) :
    flipBit (a ++ b) i = flipBit a i ++ b := by
  induction a generalizing i with
  | nil => exact absurd h (Nat.not_lt_zero i)
  | cons x a ih =>
    cases i with
    | zero => rfl
    | succ i => exact congrArg (x :: ·) (ih (Nat.lt_of_succ_lt_succ h))

theorem flipBit_append_length_add (a b : Bits) (j : Nat) : flipBit (a ++ b) (a.length + j) = a ++ flipBit b j := by
  induction a with
  | nil => rw [List.length_nil, Nat.zero_add]; rfl
  | cons x a ih =>
    rw [List.length_cons, Nat.add_right_comm]
    exact congrArg (x :: ·) ih

/-- Settles O53: the block decodes to the packet, and the CRC part is the packet's own. -/
theorem perfectFrameValidates : Obligations.PerfectFrameValidates := by
  intro s p hDecoding hLegal hCells hPacket hFrm hLen
  have hGen := genOk_of_cfgOk hLegal
  have hFresh : FreshFrame s (hamEnc s.cfg.variant p) (crcRem p (genSeq s.cfg)) :=
    ⟨hDecoding, hLegal, hCells, length_hamEnc _ p, length_crcRem_genSeq hGen p, hFrm.trans (txFrame_eq _ p), hLen⟩
  obtain ⟨hRoundTrip, _⟩ := crcDetectsEverySingleError s.cfg hGen
  exact hFresh.validates (hamDec_hamEnc hPacket) (hRoundTrip p)

/-- Settles O54: the block still decodes to the packet, corrected. -/
theorem oneErrorInTheBlockIsCorrected : Obligations.OneErrorInTheBlockIsCorrected := by
  intro s p i hDecoding hLegal hCells hPacket hi hFrm hLen
  have hGen := genOk_of_cfgOk hLegal
  have hBlock := length_hamEnc s.cfg.variant p
  have hFresh : FreshFrame s (flipBit (hamEnc s.cfg.variant p) i) (crcRem p (genSeq s.cfg)) :=
    ⟨hDecoding, hLegal, hCells, (length_flipBit _ i).trans hBlock, length_crcRem_genSeq hGen p,
      by rw [hFrm, txFrame_eq, flipBit_append_of_lt (hBlock.symm ▸ hi)], hLen⟩
  obtain ⟨hRoundTrip, _⟩ := crcDetectsEverySingleError s.cfg hGen
  exact hFresh.validates (hamDec_flipBit_hamEnc hPacket hi) (hRoundTrip p)

/-- Settles O55: the block decodes to the packet as it is, and the CRC sees the flipped bit. -/
theorem oneErrorInTheCrcIsNacked : Obligations.OneErrorInTheCrcIsNacked := by
  intro s p i hDecoding hLegal hCells hPacket hFrom hTo hFrm hLen
  obtain ⟨j, rfl⟩ := Nat.exists_eq_add_of_le hFrom
  have hj : j < degR s.cfg := Nat.lt_of_add_lt_add_left hTo
  have hGen := genOk_of_cfgOk hLegal
  have hBlock := length_hamEnc s.cfg.variant p
  have hFresh : FreshFrame s (hamEnc s.cfg.variant p) (flipBit (crcRem p (genSeq s.cfg)) j) :=
    ⟨hDecoding, hLegal, hCells, hBlock, (length_flipBit _ j).trans (length_crcRem_genSeq hGen p),
      by rw [hFrm, txFrame_eq, ← hBlock, flipBit_append_length_add], hLen⟩
  obtain ⟨_, hSeen, _⟩ := crcDetectsEverySingleError s.cfg hGen
  refine hFresh.mismatches (hamDec_hamEnc hPacket) ?_
  rw [← flipBit_append_length_add]
  exact hSeen p (p.length + j) (Nat.add_lt_add_left hj _)

end Sys2Proof.Machine
end

section
/-! The system commands (47_system.md): `NOP` (O2), `RESET` (O3), the registers written (O5) and read (O6), a session
started (O8) and ended (O9), and what the response to any host command says of the rest of the state (O49). -/

namespace Sys2Proof.Machine

/-! ## One response per command (R287, R93) -/

/-- The three ways in which the host command `i` takes `s` to the state that carries its one response. -/
inductive Responds (i : Instr) (s : State) : State → Prop
  /-- R103: a failed check. -/
  | refuses (st : Cond) : Responds i s (refuse st s)
  /-- R11: `OK`, with data that fits `rlen`, from a state with the link around the core as it was. -/
  | completes (flag : Bool) {data : Bits} {d : State} (hEnv : d.env = s.env) (hOut : d.out = s.out)
      (hFits : data.length < 2 ^ 24) : Responds i s (respond .ok flag data d)
  /-- R285: the one refusal that changes state. -/
  | failsToStart {aux : BitVec 8} {p : Bits} (hStart : i = .sessionStart aux p) :
      Responds i s (refuse .configViolation { s with cfgErr := true })

/-- A command refuses, or responds as it does when every check holds. -/
theorem responds_of_runCommand {i : Instr} {cs : List (Bool × Cond)} {d s t : State}
    (h : runCommand cs d s = .next t) (hDone : (∀ c ∈ cs, c.1 = true) → Responds i s d) : Responds i s t := by
  rcases runCommand_cases h with ⟨rfl, hChecks⟩ | ⟨c, _, _, rfl⟩
  · exact hDone hChecks
  · rw [← refuse_eq_answered]
    exact .refuses c.2

/-- A response without data. -/
theorem Responds.withoutData {i : Instr} {s d : State} (flag : Bool) (hEnv : d.env = s.env) (hOut : d.out = s.out) :
    Responds i s (respond .ok flag [] d) := .completes flag hEnv hOut (by simp)

theorem responds_of_execCfgWr {aux : BitVec 8} {p : Bits} {s t : State} (h : execCfgWr aux p s = .next t) :
    Responds (.cfgWr aux p) s t := by
  unfold execCfgWr at h
  split at h
  · exact responds_of_runCommand h fun hChecks => by simp at hChecks
  · exact responds_of_runCommand h fun _ => .withoutData false rfl rfl

theorem regWidth_le (r : Reg) : regWidth r ≤ 32 := by cases r <;> decide

/-- R284: the bits of a register fit a response. -/
theorem length_registerBits_lt (r : Reg) (v : Nat) : (wordBits (regWidth r) v).length < 2 ^ 24 := by
  rw [length_wordBits]
  exact (regWidth_le r).trans_lt (by omega)

theorem responds_of_execCfgRd {aux : BitVec 8} {p : Bits} {s t : State} (h : execCfgRd aux p s = .next t) :
    Responds (.cfgRd aux p) s t := by
  unfold execCfgRd at h
  split at h
  · exact responds_of_runCommand h fun hChecks => by simp at hChecks
  · exact responds_of_runCommand h fun _ => .completes false rfl rfl (length_registerBits_lt _ _)

theorem responds_of_execSessionStart {aux : BitVec 8} {p : Bits} {s t : State}
    (h : execSessionStart aux p s = .next t) : Responds (.sessionStart aux p) s t := by
  refine responds_of_runCommand h fun _ => ?_
  split
  · exact .withoutData false rfl rfl
  · exact .failsToStart rfl

/-- R6: the check sequence of a legal configuration has at most 16 bits. -/
theorem length_crcRem_genSeq_le {c : Cfg} (h : genOk c = true) (p : Bits) : (crcRem p (genSeq c)).length ≤ 16 := by
  have hGen := length_genSeq_le h
  rw [length_crcRem_genSeq h, degR]
  omega

/-- The checks of a CRC command include the legal generator. -/
theorem genOk_of_crcChecks {s : State} (h : ∀ c ∈ crcChecks s, c.1 = true) : genOk s.cfg = true :=
  h (genOk s.cfg, .configViolation) (by simp [crcChecks])

/-- The checks of an interleaver command make its payload `M` codewords of equal length. -/
theorem length_of_ilvChecks {aux : BitVec 8} {p : Bits} {s : State} (h : ∀ c ∈ ilvChecks aux p s, c.1 = true) :
    1 ≤ aux.toNat ∧ p.length = aux.toNat * (p.length / aux.toNat) := by
  obtain ⟨hM, hLen⟩ := (ilvShape_iff aux p.length).1
    (h (decide (aux ≠ 0) && decide (p.length % aux.toNat = 0), .lenErr) (by simp [ilvChecks]))
  exact ⟨Nat.pos_of_ne_zero hM, (Nat.mul_div_cancel' (Nat.dvd_of_mod_eq_zero hLen)).symm⟩

/-- The data of a `HAM_DEC` response is one block's. -/
theorem responds_respondHamDec (aux : BitVec 8) (v : BitVec 1) (p : Bits) (s : State) :
    Responds (.hamDec aux p) s (respondHamDec v p s) := by
  unfold respondHamDec
  split
  · exact .refuses .invalidSyndrome
  · next d cor hDec =>
    have hData : d.length ≤ 71 := (length_of_hamDec hDec).trans_le ((Nat.le_add_right _ _).trans (blockN_le v))
    exact .completes cor rfl rfl (hData.trans_lt (by omega))

/-- Every host command responds, command by command; the data of the codec commands is as long as a block, a CRC, the
cells in use or the payload. -/
theorem responds_of_exec {i : Instr} {s t : State} (hWell : wellFormed i = true) (hPort : portOf i = some .cmd)
    (h : exec i s = .next t) : Responds i s t := by
  cases i
  all_goals cases hPort
  case cfgWr aux p => exact responds_of_execCfgWr h
  case cfgRd aux p => exact responds_of_execCfgRd h
  case sessionStart aux p => exact responds_of_execSessionStart h
  case crcRem aux p =>
    refine responds_of_runCommand h fun hChecks => .completes false rfl rfl ?_
    exact (length_crcRem_genSeq_le (genOk_of_crcChecks hChecks) p).trans_lt (by omega)
  case crcAppend aux p =>
    refine responds_of_runCommand h fun hChecks => .completes false rfl rfl ?_
    have hPayload : p.length < 65536 := of_decide_eq_true hWell
    have hRem := length_crcRem_genSeq_le (genOk_of_crcChecks hChecks) p
    rw [crcAppend, List.length_append]
    omega
  case hamEnc aux p =>
    refine responds_of_runCommand h fun _ => .completes false rfl rfl ?_
    rw [length_hamEnc]
    exact (blockN_le _).trans_lt (by omega)
  case hamDec aux p => exact responds_of_runCommand h fun _ => responds_respondHamDec aux _ p s
  case ilv aux p =>
    refine responds_of_runCommand h fun hChecks => .completes false rfl rfl ?_
    have hPayload : p.length < 65536 := of_decide_eq_true hWell
    obtain ⟨hM, hRows⟩ := length_of_ilvChecks hChecks
    rw [length_ilv hM hRows, ← hRows]
    omega
  case dilv aux p =>
    refine responds_of_runCommand h fun hChecks => .completes false rfl rfl ?_
    have hPayload : p.length < 65536 := of_decide_eq_true hWell
    obtain ⟨hM, hRows⟩ := length_of_ilvChecks hChecks
    rw [length_dilv hM hRows, ← hRows]
    omega
  case cbCombine aux p =>
    refine responds_of_runCommand h fun hChecks => .completes false rfl rfl ?_
    have hPayload : p.length < 65536 := of_decide_eq_true hWell
    have hLength : p.length = frameW s.cfg :=
      of_decide_eq_true (hChecks (decide (p.length = frameW s.cfg), .lenErr) (by simp))
    rw [length_combine_snd, ← hLength]
    omega
  case cbRead aux p =>
    refine responds_of_runCommand h fun hChecks => .completes false rfl rfl ?_
    have hCells : frameW s.cfg ≤ 87 := frameW_le_cbCells (hChecks (genOk s.cfg, .configViolation) (by simp))
    rw [length_cbReadBits]
    omega
  all_goals exact responds_of_runCommand h fun _ => .withoutData _ rfl rfl

/-- Settles O49, response by response, in the words of R93. -/
theorem refusedCommandsChangeNothing : Obligations.RefusedCommandsChangeNothing := by
  intro i s t hWell hPort h
  cases responds_of_exec hWell hPort h
  case refuses st =>
    rw [refuse_eq_answered]
    exact ⟨(condCode st).toNat, 0, [], (condCode st).isLt, Nat.zero_le 1, by simp, rfl, rfl,
      fun _ => ⟨rfl, rfl, .inl rfl⟩⟩
  case completes flag data d hEnv hOut hFits =>
    rw [respond_eq_answered _ _ _ _ hFits]
    refine ⟨0, flag.toNat, data, by omega, Bool.toNat_le flag, hFits, hEnv, ?_, fun hRefused => absurd rfl hRefused⟩
    simp only [answered, hOut]
    rfl
  case failsToStart aux p hStart =>
    rw [refuse_eq_answered]
    exact ⟨6, 0, [], by omega, Nat.zero_le 1, by simp, rfl, rfl,
      fun _ => ⟨rfl, rfl, .inr ⟨⟨aux, p, hStart⟩, rfl, rfl⟩⟩⟩

/-! ## `NOP` and `RESET` (R281, R282) -/

/-- R103: the one check of a command without operands. -/
theorem runCommand_noPayload (p : Bits) (d s : State) :
    runCommand [(p.isEmpty, .lenErr)] d s = .next (if p.length ≠ 0 then answered s 10 0 [] else d) :=
  runCommand_cons_eq_ite (isEmpty_eq_false_iff_length_ne_zero p) fun _ => runCommand_nil d s

/-- `OK` without data (R93). -/
theorem respond_ok_eq_answered (s : State) : respond .ok false [] s = answered s 0 0 [] :=
  respond_eq_answered _ _ _ _ (by simp)

theorem exec_nop (aux : BitVec 8) (p : Bits) (s : State) : exec (.nop aux p) s = execNop aux p s := rfl

theorem exec_reset (aux : BitVec 8) (p : Bits) (s : State) : exec (.reset aux p) s = execReset aux p s := rfl

/-- Settles O2: the wire form, and the two answers. -/
theorem nopOnlyAnswers : Obligations.NopOnlyAnswers := by
  intro aux p s hFits
  refine ⟨decode_cmdWire_of_commandOf (by omega) hFits rfl, ?_⟩
  rw [exec_nop, execNop, runCommand_noPayload, respond_ok_eq_answered, ite_not]

/-- Settles O3: the wire form, the reset values of R41, and the refusal. -/
theorem resetCommandResets : Obligations.ResetCommandResets := by
  intro aux p s hFits
  refine ⟨decode_cmdWire_of_commandOf (by omega) hFits rfl, fun hEmpty => ?_, fun hPayload => ?_⟩
  · refine ⟨resetCore s, ?_, atReset_with_link _ _, rfl, rfl⟩
    rw [exec_reset, execReset, runCommand_noPayload, if_neg (not_not_intro hEmpty), respond_ok_eq_answered]
  · rw [exec_reset, execReset, runCommand_noPayload, if_pos hPayload]

/-! ## The registers (R61) -/

/-- R61: the index of a register names it. -/
theorem regOf_regIndex (r : Reg) : regOf (regIndex r) = some r := by
  cases r <;> rfl

/-- R61: and no other index does. -/
theorem eq_regIndex_of_regOf {aux : BitVec 8} {r : Reg} (h : regOf aux = some r) : aux = regIndex r := by
  unfold regOf at h
  split at h
  all_goals cases h
  all_goals exact BitVec.eq_of_toNat_eq ‹_›

/-- R61: the reserved indices are those of no register. -/
theorem regOf_eq_none_iff (aux : BitVec 8) : regOf aux = none ↔ reservedIndex aux.toNat := by
  have hLt := aux.isLt
  unfold reservedIndex
  constructor
  · intro h
    unfold regOf at h
    split at h
    case h_26 =>
      simp only [imp_false] at *
      omega
    all_goals cases h
  · intro h
    unfold regOf
    split
    case h_26 => rfl
    all_goals omega

/-- R61: the registers of the indices up to 0x04 are the writable ones; those from 0x10 on are read-only. -/
theorem regWritable_iff (r : Reg) : regWritable r = true ↔ (regIndex r).toNat ≤ 0x04 := by
  cases r <;> decide

theorem regWidth_of_writable {r : Reg} (h : regWritable r = true) : regWidth r = cfgWidth (regIndex r).toNat := by
  cases r
  all_goals cases h
  all_goals rfl

/-- R94: a write to a configuration register, by its index. -/
theorem writeCfg_of_writable {r : Reg} (h : regWritable r = true) (v : Nat) (c : Cfg) :
    writeCfg r v c = cfgHolding (regIndex r).toNat v c := by
  cases r
  all_goals cases h
  all_goals rfl

/-- R61: the table, looked up by index. -/
theorem find_registerTable (s : State) (aux : BitVec 8) :
    (registerTable s).find? (fun row => row.1 == aux.toNat) =
      (regOf aux).map fun r => (aux.toNat, regWidth r, readReg s r) := by
  cases h : regOf aux with
  | none =>
    have hReserved := (regOf_eq_none_iff aux).1 h
    unfold reservedIndex at hReserved
    rw [Option.map_none, List.find?_eq_none]
    simp only [registerTable, List.cons_append, List.nil_append, List.forall_mem_cons, List.not_mem_nil, false_implies,
      implies_true, and_true, beq_iff_eq]
    omega
  | some r =>
    rw [eq_regIndex_of_regOf h]
    cases r
    case status => exact congrArg (fun v => some (0x10, 32, v)) (statusWord_toNat s).symm
    all_goals rfl

/-! ## `CFG_WR` (R283) -/

theorem exec_cfgWr_of_reserved {aux : BitVec 8} (h : regOf aux = none) (p : Bits) (s : State) :
    exec (.cfgWr aux p) s = runCommand [(quiescent s, .busy), (false, .badIdx)] s s := by
  simp only [exec, execCfgWr, h]

theorem exec_cfgWr_of_register {r : Reg} (p : Bits) (s : State) :
    exec (.cfgWr (regIndex r) p) s =
      runCommand [(quiescent s, .busy), (regWritable r, .readOnly), (cfgWrLenOk r p, .lenErr)]
        (respond .ok false [] (cbClear { s with cfg := writeCfg r (bitsVal p) s.cfg })) s := by
  simp only [exec, execCfgWr, regOf_regIndex]

/-- R61: an index that is not reserved is that of a register. -/
theorem exists_regIndex_eq {aux : BitVec 8} (h : ¬ reservedIndex aux.toNat) : ∃ r, aux = regIndex r := by
  obtain ⟨r, hReg⟩ := Option.ne_none_iff_exists'.1 (mt (regOf_eq_none_iff aux).1 h)
  exact ⟨r, eq_regIndex_of_regOf hReg⟩

/-- R61: an index up to 0x04 is that of a configuration register. -/
theorem exists_writable_regIndex_eq {aux : BitVec 8} (h : aux.toNat ≤ 0x04) :
    ∃ r, regWritable r = true ∧ aux = regIndex r := by
  have hDefined : ¬ reservedIndex aux.toNat := by
    unfold reservedIndex
    omega
  obtain ⟨r, rfl⟩ := exists_regIndex_eq hDefined
  exact ⟨r, (regWritable_iff r).2 h, rfl⟩

/-- R283: the length check of a write to a configuration register. -/
theorem cfgWrLenOk_eq_false_iff {r : Reg} (h : regWritable r = true) (p : Bits) :
    cfgWrLenOk r p = false ↔ p.length = 0 ∨ cfgWidth (regIndex r).toNat < p.length := by
  rw [cfgWrLenOk, Bool.and_eq_false_iff, decide_eq_false_iff_not, decide_eq_false_iff_not, Nat.not_le, Nat.not_le,
    Nat.lt_one_iff, regWidth_of_writable h]

/-- Settles O5: the wire form, the four refusals in their order, and the value written. -/
theorem cfgWrWritesOneRegister : Obligations.CfgWrWritesOneRegister := by
  intro aux p s hFits
  refine ⟨decode_cmdWire_of_commandOf (by omega) hFits rfl, fun hBusy => ?busy, fun hQuiet hReserved => ?reserved,
    fun hQuiet hDefined hIndex => ?readOnly, fun hQuiet hIndex hLength => ?length,
    fun hQuiet hIndex hSome hWidth => ?written⟩
  case busy =>
    by_cases hReserved : reservedIndex aux.toNat
    · rw [exec_cfgWr_of_reserved ((regOf_eq_none_iff aux).2 hReserved), runCommand_of_failing hBusy]
      rfl
    · obtain ⟨r, rfl⟩ := exists_regIndex_eq hReserved
      rw [exec_cfgWr_of_register, runCommand_of_failing hBusy]
      rfl
  case reserved =>
    rw [exec_cfgWr_of_reserved ((regOf_eq_none_iff aux).2 hReserved), runCommand_of_holding hQuiet,
      runCommand_of_failing rfl]
    rfl
  case readOnly =>
    obtain ⟨r, rfl⟩ := exists_regIndex_eq hDefined
    have hReadOnly : regWritable r = false := Bool.eq_false_iff.2 (mt (regWritable_iff r).1 (by omega))
    rw [exec_cfgWr_of_register, runCommand_of_holding hQuiet, runCommand_of_failing hReadOnly]
    rfl
  case length =>
    obtain ⟨r, hWritable, rfl⟩ := exists_writable_regIndex_eq hIndex
    rw [exec_cfgWr_of_register, runCommand_of_holding hQuiet, runCommand_of_holding hWritable,
      runCommand_of_failing ((cfgWrLenOk_eq_false_iff hWritable p).2 hLength)]
    rfl
  case written =>
    obtain ⟨r, hWritable, rfl⟩ := exists_writable_regIndex_eq hIndex
    have hLength : cfgWrLenOk r p = true :=
      Bool.eq_true_of_not_eq_false (mt (cfgWrLenOk_eq_false_iff hWritable p).1 (by omega))
    rw [exec_cfgWr_of_register, runCommand_of_holding hQuiet, runCommand_of_holding hWritable,
      runCommand_of_holding hLength, runCommand_nil, respond_ok_eq_answered, cbClear_eq, writeCfg_of_writable hWritable,
      seqValue_eq_bitsVal]

/-! ## `CFG_RD` (R284) -/

theorem exec_cfgRd_of_regOf_none {aux : BitVec 8} (h : regOf aux = none) (p : Bits) (s : State) :
    exec (.cfgRd aux p) s = .next (answered s 11 0 []) := by
  simp only [exec, execCfgRd, h]
  exact runCommand_of_failing rfl _ _ _ _

/-- R284: a read without payload answers the register's bits. -/
theorem exec_cfgRd_of_regOf_some {aux : BitVec 8} {r : Reg} (h : regOf aux = some r) (p : Bits) (s : State) :
    exec (.cfgRd aux p) s =
      .next (if p.length = 0 then answered s 0 0 (msbFirst (regWidth r) (readReg s r)) else answered s 10 0 []) := by
  simp only [exec, execCfgRd, h]
  rw [runCommand_noPayload, respond_eq_answered _ _ _ _ (length_registerBits_lt _ _), ite_not, msbFirst_eq_wordBits]
  rfl

/-- Settles O6: the wire form, and the answer by the row of R61 at the index. -/
theorem cfgRdReadsOneRegister : Obligations.CfgRdReadsOneRegister := by
  intro aux p s hFits
  refine ⟨decode_cmdWire_of_commandOf (by omega) hFits rfl, ?_⟩
  rw [find_registerTable]
  cases hReg : regOf aux with
  | none => exact exec_cfgRd_of_regOf_none hReg p s
  | some r => exact exec_cfgRd_of_regOf_some hReg p s

/-! ## A session started and ended (R285, R286) -/

/-- R28: `cfg_ok` by the values of the registers. -/
theorem cfgOk_iff (c : Cfg) :
    cfgOk c = true ↔
      2 ≤ c.gen.toNat ∧ c.gen.toNat % 2 = 1 ∧ 1 ≤ c.timeout.toNat ∧ 1 ≤ c.maxAtt.toNat ∧ c.combRule.toNat ≤ 1 := by
  simp [cfgOk, genOk, ruleOk, BitVec.getLsbD, and_assoc]

theorem exec_sessionStart (aux : BitVec 8) (p : Bits) (s : State) :
    exec (.sessionStart aux p) s = execSessionStart aux p s := rfl

theorem exec_sessionEnd (aux : BitVec 8) (p : Bits) (s : State) :
    exec (.sessionEnd aux p) s = execSessionEnd aux p s := rfl

/-- Settles O8: the wire form, the two refusals in their order, and the two outcomes of `cfg_ok`. -/
theorem sessionStartChecksAndClears : Obligations.SessionStartChecksAndClears := by
  intro aux p s hFits
  refine ⟨decode_cmdWire_of_commandOf (by omega) hFits rfl, ?_⟩
  rw [exec_sessionStart, execSessionStart]
  refine runCommand_cons_eq_ite Iff.rfl fun _ =>
    runCommand_cons_eq_ite (isEmpty_eq_false_iff_length_ne_zero p) fun _ => ?_
  simp only [runCommand_nil, ← cfgOk_iff, ite_not, respond_ok_eq_answered, refuse_eq_answered]
  rfl

/-- Settles O9: the wire form, the two refusals in their order, and `RUN` cleared. -/
theorem sessionEndClearsRun : Obligations.SessionEndClearsRun := by
  intro aux p s hFits
  refine ⟨decode_cmdWire_of_commandOf (by omega) hFits rfl, ?_⟩
  rw [exec_sessionEnd, execSessionEnd]
  refine runCommand_cons_eq_ite decide_eq_false_iff_not fun _ => ?_
  rw [runCommand_noPayload, respond_ok_eq_answered]

end Sys2Proof.Machine
end

section
/-! Exceptions (60_exceptions.md) and reset (70_reset_and_hazards.md): there is no trap (O41), a pending control word comes
before the `TICK` that would expire the deadline (O57), and the strobe `RST` resets in every state (O4). -/

namespace Sys2Proof.Machine

/-! ## No trap (R300, R310) -/

theorem execCfgWr_next (aux : BitVec 8) (p : Bits) (s : State) : ∃ t, execCfgWr aux p s = .next t := by
  unfold execCfgWr
  split
  · exact runCommand_next _ _ _
  · exact runCommand_next _ _ _

theorem execCfgRd_next (aux : BitVec 8) (p : Bits) (s : State) : ∃ t, execCfgRd aux p s = .next t := by
  unfold execCfgRd
  split
  · exact runCommand_next _ _ _
  · exact runCommand_next _ _ _

/-- A port event, a strobe or an internal step answers its effect or the state it waits in; every other operation is a
host command, which answers a refusal or its effect. -/
theorem exec_next (i : Instr) (s : State) : ∃ t, exec i s = .next t := by
  cases i
  case frmIn | frmLost | ctlAck | ctlNack | tick | rst | txSend | txAdvance | rxDecode | rxRespond => exact ⟨_, rfl⟩
  case cfgWr aux p => exact execCfgWr_next aux p s
  case cfgRd aux p => exact execCfgRd_next aux p s
  all_goals exact runCommand_next _ _ _

/-- What is fetched is carried out without a stop, whenever the meaning of the operations has none. -/
theorem runFetched_next {meaning : Instr → State → Result} (hMeaning : ∀ i s, ∃ t, meaning i s = .next t)
    (f : Fetched) : ∃ t, runFetched meaning f = .next t := by
  cases f with
  | run i s => exact hMeaning i s
  | illegal s => exact ⟨answerBadOp s, rfl⟩
  | quiet s => exact ⟨s, rfl⟩

/-- Settles O41: the operations, and with them whatever a step fetches. -/
theorem noStepEverStops : Obligations.NoStepEverStops :=
  ⟨exec_next, fun s => runFetched_next exec_next (fetch s)⟩

/-! ## A control word before the deadline (R308 (a)) -/

/-- R95: the kind of a control word is what stands above its sequence number. -/
theorem testBit_16_iff_div_eq_one (w : BitVec 17) : w.toNat.testBit 16 = true ↔ w.toNat / 2 ^ 16 = 1 := by
  have hWord := w.isLt
  rw [Nat.testBit_eq_decide_div_mod_eq, decide_eq_true_eq]
  omega

/-- R95: what any word at `CTL_IN` decodes to, in the words of the spec. -/
theorem decode_ctlIn_word (w : BitVec 17) :
    decode .ctlIn (wordBits 17 w.toNat) =
      .ok (if w.toNat / 2 ^ 16 = 1 then .ctlAck (BitVec.ofNat 16 w.toNat) else .ctlNack (BitVec.ofNat 16 w.toNat),
        []) := by
  have hWord := decodeCtl_word w.toNat []
  rw [List.append_nil] at hWord
  rw [decode, hWord]
  simp only [testBit_16_iff_div_eq_one]

/-- Log 13: a word that stands at the accepting port is pending. -/
theorem controlPending_of_ready {s : State} {w : BitVec 17} {ws : List (BitVec 17)} (hReady : s.env.ctlReady = true)
    (hPath : s.env.ctlPath = w :: ws) (hWait : s.tx.state = .awaitingAck) : controlPending s = true := by
  rw [controlPending, hReady, hPath, (ctlReadyToTake_iff s).2 hWait]
  rfl

/-- R308 (a): the pending word is delivered in the clock's turn, which stays listed. -/
theorem step_clock_of_controlFirst {s : State} {ts : List Turn} (hTurn : s.env.turns = .clock :: ts)
    (hFirst : controlFirst s = true) : step s = runFetched exec (fetchTurn .controlDeliver s) := by
  simp only [step, fetch, hTurn, hFirst, and_self, if_true]

/-- Settles O57: the word is pending and the deadline is due, so the clock's turn delivers the word. -/
theorem pendingControlWordComesBeforeTheDeadline : Obligations.PendingControlWordComesBeforeTheDeadline := by
  intro s ts w ws hTurn hReady hPath hWait hDeadline
  have hFirst : controlFirst s = true :=
    Bool.and_eq_true_iff.2
      ⟨controlPending_of_ready hReady hPath hWait, (tickExpires_iff s).2 ⟨hWait, hDeadline⟩⟩
  have hWord := decode_ctlIn_word w
  rw [step_clock_of_controlFirst hTurn hFirst, fetchTurn_controlDeliver hPath, runFetched_fetchPort hWord,
    ready_of_decode_ctlIn hWord, if_pos ((ctlReadyToTake_iff s).2 hWait)]
  rfl

/-! ## The strobe `RST` (R340) -/

/-- R340: the core at its reset values, the link as it was but for what stood on `CMD`. -/
theorem exec_rst (s : State) :
    exec .rst s = .next { State.reset with env := { s.env with cmdIn := [] }, out := s.out } := rfl

/-- R30: a block at its reset values is quiescent. -/
theorem quiescent_of_atReset {s : State} (h : AtReset s) : quiescent s = true := by
  obtain ⟨_, _, _, _, _, hRun, _, _, _, _, hTx, hRx, _⟩ := h
  rw [quiescent, hRun, hTx, hRx]
  rfl

/-- Settles O4: the strobe, and the reset values with the link that `RST` leaves. -/
theorem rstStrobeResets : Obligations.RstStrobeResets := by
  refine ⟨fun rest => rfl, fun s => ?_⟩
  have hReset := atReset_with_link { s.env with cmdIn := [] } s.out
  exact ⟨_, exec_rst s, hReset, quiescent_of_atReset hReset, rfl, rfl⟩

end Sys2Proof.Machine
end
